-- ==== Sys2Proof/Word.lean ====
section
/-! DEFINITION. The byte, the only word the block computes on (spec/00_scope.md R8). -/

namespace Sys2Proof

/-- R8: an unsigned 8-bit value. Arithmetic on it wraps modulo 256. -/
abbrev Byte := BitVec 8

end Sys2Proof
end

