-- ==== Sys2Proof/Config.lean ====
section
/-! DEFINITION. The instantiation parameter MAX_FRAME (spec/00_scope.md R6) and the fixed values of
R7, R41, R47, R63 and R112. Nothing here is a free value: the spec leaves no result undefined. -/

namespace Sys2Proof

/-- R6, R23: the configuration of one instance, fixed for its life. The constraint
`MAX_FRAME >= 1798` is carried with the number, so no instance can break it. -/
structure Config where
  /-- R6: the largest number of bytes of a raw frame, the checksum byte not counted. -/
  maxFrame : Nat
  /-- R6: "with the constraint `MAX_FRAME >= 1798`". -/
  atLeast : 1798 ≤ maxFrame
  deriving DecidableEq, Repr

/-- R6: "the default value `MAX_FRAME = 1798`". -/
def Config.default : Config := { maxFrame := 1798, atLeast := Nat.le_refl 1798 }

/-! R7, R41: control bytes. -/
abbrev dle : Byte := 0x10#8
abbrev stx : Byte := 0x02#8
abbrev etx : Byte := 0x03#8

/-! R7, R47: BST type identifiers. -/
abbrev idBst93 : Byte := 0x93#8
abbrev idBst94 : Byte := 0x94#8
abbrev idBst95 : Byte := 0x95#8
abbrev idBstD0 : Byte := 0xD0#8

/-! R63: host operation codes; 0x05 to 0xFF are unassigned. -/
abbrev opReset : Byte := 0x00#8
abbrev opFeed : Byte := 0x01#8
abbrev opFeedChunk : Byte := 0x02#8
abbrev opEncodeFrame : Byte := 0x03#8
abbrev opEncodeBst : Byte := 0x04#8

end Sys2Proof
end

