-- ==== Sys2Proof/Syntax.lean ====
section
/-! DEFINITION. The decoder state's four values, the typed message records, and the instructions:
one constructor per row of spec/opcode_table.json. -/

namespace Sys2Proof

/-- R15: the four values of the 2-bit register `rx_state`. -/
inductive RxState where
  /-- 0: discarding bytes; the previous byte was no DLE that could open a frame. -/
  | scan
  /-- 1: discarding bytes; the previous byte was a DLE. -/
  | scanDle
  /-- 2: accumulating the data block, no escape pending. -/
  | body
  /-- 3: inside a frame, a lone DLE has been seen. -/
  | bodyEsc
  deriving DecidableEq, Repr

/-- R24: the record of BST 93 ("NGT Rx"). The wire's DL is no field: it equals `data.length`. -/
structure Bst93Rec where
  prio : BitVec 3
  pdus : Byte
  pduf : Byte
  dp : BitVec 2
  dst : Byte
  data : List Byte
  deriving DecidableEq, Repr

/-- R24: BST 94 ("NGT Tx") has the same fields as BST 93. -/
abbrev Bst94Rec := Bst93Rec

/-- R25: the record of BST 95 ("raw CAN"). -/
structure Bst95Rec where
  ts : BitVec 16
  trc : BitVec 2
  src : Byte
  pdus : Byte
  pduf : Byte
  dp : BitVec 2
  prio : BitVec 3
  dir : BitVec 1
  data : List Byte
  deriving DecidableEq, Repr

/-- R26: the record of BST D0 ("N2K Actisense"); `dpp` and `ctrl` are kept raw. -/
structure BstD0Rec where
  dst : Byte
  src : Byte
  pdus : Byte
  pduf : Byte
  dpp : Byte
  ctrl : Byte
  ts : BitVec 32
  data : List Byte
  deriving DecidableEq, Repr

/-- R22, R24 to R26: a typed record together with its variant, so that a tag with a record of
another variant's type cannot be written (R124 gives such a pair no meaning; log 19). The length of
`data` is not bounded here: a record that is too long is a case of R112, not of typing. -/
inductive BstRec where
  | bst93 (r : Bst93Rec)
  | bst94 (r : Bst94Rec)
  | bst95 (r : Bst95Rec)
  | bstD0 (r : BstD0Rec)
  deriving DecidableEq, Repr

/-- One constructor per row of spec/opcode_table.json, in the table's order: eleven wire symbols,
five BST raw frames, five host operations. -/
inductive Instr where
  /-- SCAN_OTHER, R67: in SCAN, a byte `b` other than DLE. -/
  | scanOther (b : Byte)
  /-- SCAN_GOT_DLE, R68: in SCAN, a DLE. -/
  | scanGotDle
  /-- FRAME_START, R69: in SCAN_DLE, an STX. -/
  | frameStart
  /-- SCAN_DLE_DLE, R70: in SCAN_DLE, a DLE. -/
  | scanDleDle
  /-- SCAN_DLE_OTHER, R71: in SCAN_DLE, a byte `b` other than STX and DLE. -/
  | scanDleOther (b : Byte)
  /-- BODY_DLE, R72: in BODY, a DLE. -/
  | bodyDle
  /-- BODY_DATA, R73: in BODY, a byte `b` other than DLE. -/
  | bodyData (b : Byte)
  /-- ESC_DLE, R75: in BODY_ESC, a DLE. -/
  | escDle
  /-- FRAME_END, R76: in BODY_ESC, an ETX. -/
  | frameEnd
  /-- BODY_ESC_STX, R77: in BODY_ESC, an STX. -/
  | bodyEscStx
  /-- BAD_ESCAPE, R79: in BODY_ESC, a byte `b` other than STX, ETX and DLE. -/
  | badEscape (b : Byte)
  /-- BST93, R92 to R95: the raw frame `93 :: tail`. -/
  | bst93 (tail : List Byte)
  /-- BST94, R96: the raw frame `94 :: tail`. -/
  | bst94 (tail : List Byte)
  /-- BST95, R97 to R100: the raw frame `95 :: tail`. -/
  | bst95 (tail : List Byte)
  /-- BSTD0, R101 to R104: the raw frame `D0 :: tail`. -/
  | bstD0 (tail : List Byte)
  /-- BST_UNKNOWN, R91: the raw frame `id :: tail`, `id` none of the four identifiers. -/
  | bstUnknown (id : Byte) (tail : List Byte)
  /-- RESET, R119. -/
  | reset
  /-- FEED, R117. -/
  | feed (b : Byte)
  /-- FEED_CHUNK, R118. -/
  | feedChunk (bs : List Byte)
  /-- ENCODE_FRAME, R83. -/
  | encodeFrame (payload : List Byte)
  /-- ENCODE_BST, R108: `r` holds the tag and the record. -/
  | encodeBst (r : BstRec)
  deriving DecidableEq, Repr

end Sys2Proof
end

