-- ==== Sys2Proof/WellFormed.lean ====
section
/-! DEFINITION. Which terms of `Instr` are instructions: the "Operands" line of each rule. A wire
symbol whose row takes "any other byte" holds none of the bytes that other rows take, and
BST_UNKNOWN holds none of the four identifiers. -/

namespace Sys2Proof

/-- R47: the four BST identifiers. -/
def isBstId (b : Byte) : Bool := b = idBst93 || b = idBst94 || b = idBst95 || b = idBstD0

/-- R67, R71, R73, R79, R91: the operand bytes a row may hold. -/
def wellFormed : Instr → Bool
  | .scanOther b => b ≠ dle
  | .scanGotDle => true
  | .frameStart => true
  | .scanDleDle => true
  | .scanDleOther b => b ≠ stx && b ≠ dle
  | .bodyDle => true
  | .bodyData b => b ≠ dle
  | .escDle => true
  | .frameEnd => true
  | .bodyEscStx => true
  | .badEscape b => b ≠ stx && b ≠ etx && b ≠ dle
  | .bst93 _ => true
  | .bst94 _ => true
  | .bst95 _ => true
  | .bstD0 _ => true
  | .bstUnknown id _ => !isBstId id
  | .reset => true
  | .feed _ => true
  | .feedChunk _ => true
  | .encodeFrame _ => true
  | .encodeBst _ => true

/-- A term of `Instr` that is an instruction of the block. -/
abbrev Instr.WellFormed (i : Instr) : Prop := wellFormed i = true

end Sys2Proof
end

