-- ==== Sys2Proof/Decode.lean ====
section
/-! DEFINITION. Decoding and encoding at the block's three decode points (spec/30_encoding.md,
opening; R45, R47, R63): host operations by their code, wire symbols by (`rx_state`, byte), raw
frames by their first byte. The byte-order helpers of R10 stand here too. -/

namespace Sys2Proof

/-! ### Byte order (R10, R31) -/

/-- R10: `le16(a, b) = a + 256*b`. -/
def le16 (a b : Byte) : BitVec 16 := a.setWidth 16 + 256#16 * b.setWidth 16

/-- R10: `le32(a, b, c, d) = a + 256*b + 65536*c + 16777216*d`. -/
def le32 (a b c d : Byte) : BitVec 32 :=
  a.setWidth 32 + 256#32 * b.setWidth 32 + 65536#32 * c.setWidth 32 + 16777216#32 * d.setWidth 32

/-- R9, R110, R111: byte `k` of `v`, that is `v[8k+7:8k]`. -/
def byteOf {w : Nat} (v : BitVec w) (k : Nat) : Byte := v.extractLsb' (8 * k) 8

/-- An operand byte as a field of `w` bits, where its value fits (R24: "a field can hold no value
outside its range"; R124: an ill-typed operand is refused). -/
def narrow (w : Nat) (b : Byte) : Option (BitVec w) :=
  if b.toNat < 2 ^ w then some (b.setWidth w) else none

/-! ### Records as operand bytes of ENCODE_BST (log 5) -/

/-- R22, R108: the tag of a record, its type identifier. -/
def BstRec.tag : BstRec → Byte
  | .bst93 _ => idBst93
  | .bst94 _ => idBst94
  | .bst95 _ => idBst95
  | .bstD0 _ => idBstD0

/-- R24 to R26: the payload bytes of a record. -/
def BstRec.data : BstRec → List Byte
  | .bst93 r => r.data
  | .bst94 r => r.data
  | .bst95 r => r.data
  | .bstD0 r => r.data

/-- DESIGN CHOICE (log 5): the fields of R24 in order, a byte each, then the data. -/
def ngtBytes (r : Bst93Rec) : List Byte :=
  [r.prio.setWidth 8, r.pdus, r.pduf, r.dp.setWidth 8, r.dst] ++ r.data

/-- DESIGN CHOICE (log 5): the fields of R25 in order, `ts` low byte first, then the data. -/
def canBytes (r : Bst95Rec) : List Byte :=
  [byteOf r.ts 0, byteOf r.ts 1, r.trc.setWidth 8, r.src, r.pdus, r.pduf, r.dp.setWidth 8,
    r.prio.setWidth 8, r.dir.setWidth 8] ++ r.data

/-- DESIGN CHOICE (log 5): the fields of R26 in order, `ts` low byte first, then the data. -/
def n2kBytes (r : BstD0Rec) : List Byte :=
  [r.dst, r.src, r.pdus, r.pduf, r.dpp, r.ctrl, byteOf r.ts 0, byteOf r.ts 1, byteOf r.ts 2,
    byteOf r.ts 3] ++ r.data

/-- The operand bytes of a record after its tag (log 5). -/
def BstRec.bytes : BstRec → List Byte
  | .bst93 r => ngtBytes r
  | .bst94 r => ngtBytes r
  | .bst95 r => canBytes r
  | .bstD0 r => n2kBytes r

/-- Reads `ngtBytes` back; none for bytes that are no record of R24. -/
def readNgt : List Byte → Option Bst93Rec
  | prio :: pdus :: pduf :: dp :: dst :: data =>
    match narrow 3 prio, narrow 2 dp with
    | some prio, some dp => some ⟨prio, pdus, pduf, dp, dst, data⟩
    | _, _ => none
  | _ => none

/-- Reads `canBytes` back; none for bytes that are no record of R25. -/
def readCan : List Byte → Option Bst95Rec
  | t0 :: t1 :: trc :: src :: pdus :: pduf :: dp :: prio :: dir :: data =>
    match narrow 2 trc, narrow 2 dp, narrow 3 prio, narrow 1 dir with
    | some trc, some dp, some prio, some dir =>
      some ⟨le16 t0 t1, trc, src, pdus, pduf, dp, prio, dir, data⟩
    | _, _, _, _ => none
  | _ => none

/-- Reads `n2kBytes` back; none for bytes that are no record of R26. -/
def readN2k : List Byte → Option BstD0Rec
  | dst :: src :: pdus :: pduf :: dpp :: ctrl :: t0 :: t1 :: t2 :: t3 :: data =>
    some ⟨dst, src, pdus, pduf, dpp, ctrl, le32 t0 t1 t2 t3, data⟩
  | _ => none

/-- R108, R124: the record of a tag; none for a tag outside {93, 94, 95, D0} or an ill-typed
record. -/
def readRec (tag : Byte) (bs : List Byte) : Option BstRec :=
  if tag = idBst93 then (readNgt bs).map .bst93
  else if tag = idBst94 then (readNgt bs).map .bst94
  else if tag = idBst95 then (readCan bs).map .bst95
  else if tag = idBstD0 then (readN2k bs).map .bstD0
  else none

/-! ### The three decoders -/

/-- Where the block decodes (spec/30_encoding.md, opening). -/
inductive DecodePoint where
  /-- R63: a host operation, its code and its operand bytes. -/
  | hostOp
  /-- R45: one input byte, in the decoder state `st`. -/
  | wire (st : RxState)
  /-- R47: a verified raw frame, by its first byte. -/
  | frame
  deriving DecidableEq, Repr

/-- Why bytes are no instruction at a decode point. -/
inductive Undecodable where
  /-- An operation, symbol or frame of no bytes (for a frame: R90 handles it without a row). -/
  | noBytes
  /-- A wire symbol is one byte. -/
  | notOneByte
  /-- R124: operation codes 0x05 to 0xFF. -/
  | unassignedOpcode (code : Byte)
  /-- R124: "an operation with an ill-typed operand". -/
  | illTypedOperand (code : Byte)
  deriving DecidableEq, Repr

/-- R63, R124: the host operation of `code` followed by its operand bytes. -/
def decodeHostOp : List Byte → Except Undecodable Instr
  | [] => .error .noBytes
  | code :: operands =>
    if code = opReset then
      match operands with
      | [] => .ok .reset
      | _ :: _ => .error (.illTypedOperand code)
    else if code = opFeed then
      match operands with
      | [b] => .ok (.feed b)
      | _ => .error (.illTypedOperand code)
    else if code = opFeedChunk then .ok (.feedChunk operands)
    else if code = opEncodeFrame then .ok (.encodeFrame operands)
    else if code = opEncodeBst then
      match operands with
      | [] => .error (.illTypedOperand code)
      | tag :: bs =>
        match readRec tag bs with
        | some r => .ok (.encodeBst r)
        | none => .error (.illTypedOperand code)
    else .error (.unassignedOpcode code)

/-- R45, R81: the one arm of (`rx_state`, byte). -/
def decodeWire (st : RxState) (b : Byte) : Instr :=
  match st with
  | .scan => if b = dle then .scanGotDle else .scanOther b
  | .scanDle => if b = stx then .frameStart else if b = dle then .scanDleDle else .scanDleOther b
  | .body => if b = dle then .bodyDle else .bodyData b
  | .bodyEsc =>
    if b = dle then .escDle else if b = etx then .frameEnd
    else if b = stx then .bodyEscStx else .badEscape b

/-- R47, R89: the row of a raw frame by its first byte; the empty frame has none (R90). -/
def decodeFrame : List Byte → Option Instr
  | [] => none
  | id :: tail =>
    some (if id = idBst93 then .bst93 tail
      else if id = idBst94 then .bst94 tail
      else if id = idBst95 then .bst95 tail
      else if id = idBstD0 then .bstD0 tail
      else .bstUnknown id tail)

/-- The block's decoder at any of its decode points, total on any bytes. -/
def decode (p : DecodePoint) (bs : List Byte) : Except Undecodable Instr :=
  match p with
  | .hostOp => decodeHostOp bs
  | .wire st =>
    match bs with
    | [b] => .ok (decodeWire st b)
    | [] => .error .noBytes
    | _ :: _ :: _ => .error .notOneByte
  | .frame =>
    match decodeFrame bs with
    | some i => .ok i
    | none => .error .noBytes

/-! ### The encoder -/

/-- The decode point of an instruction: its row's format, and for a wire symbol its `rx_state`. -/
def pointOf : Instr → DecodePoint
  | .scanOther _ => .wire .scan
  | .scanGotDle => .wire .scan
  | .frameStart => .wire .scanDle
  | .scanDleDle => .wire .scanDle
  | .scanDleOther _ => .wire .scanDle
  | .bodyDle => .wire .body
  | .bodyData _ => .wire .body
  | .escDle => .wire .bodyEsc
  | .frameEnd => .wire .bodyEsc
  | .bodyEscStx => .wire .bodyEsc
  | .badEscape _ => .wire .bodyEsc
  | .bst93 _ => .frame
  | .bst94 _ => .frame
  | .bst95 _ => .frame
  | .bstD0 _ => .frame
  | .bstUnknown _ _ => .frame
  | .reset => .hostOp
  | .feed _ => .hostOp
  | .feedChunk _ => .hostOp
  | .encodeFrame _ => .hostOp
  | .encodeBst _ => .hostOp

/-- The bytes of an instruction at its decode point, from the table's rows and R63. -/
def encode : Instr → List Byte
  | .scanOther b => [b]
  | .scanGotDle => [dle]
  | .frameStart => [stx]
  | .scanDleDle => [dle]
  | .scanDleOther b => [b]
  | .bodyDle => [dle]
  | .bodyData b => [b]
  | .escDle => [dle]
  | .frameEnd => [etx]
  | .bodyEscStx => [stx]
  | .badEscape b => [b]
  | .bst93 tail => idBst93 :: tail
  | .bst94 tail => idBst94 :: tail
  | .bst95 tail => idBst95 :: tail
  | .bstD0 tail => idBstD0 :: tail
  | .bstUnknown id tail => id :: tail
  | .reset => [opReset]
  | .feed b => [opFeed, b]
  | .feedChunk bs => opFeedChunk :: bs
  | .encodeFrame payload => opEncodeFrame :: payload
  | .encodeBst r => opEncodeBst :: r.tag :: r.bytes

/-! ### The opcode table's words -/

/-- The pattern and mask of an instruction's row of spec/opcode_table.json ("match", "mask"). -/
def rowOf : Instr → Byte × Byte
  | .scanOther _ => (0x00#8, 0x00#8)
  | .scanGotDle => (0x10#8, 0xFF#8)
  | .frameStart => (0x02#8, 0xFF#8)
  | .scanDleDle => (0x10#8, 0xFF#8)
  | .scanDleOther _ => (0x00#8, 0x00#8)
  | .bodyDle => (0x10#8, 0xFF#8)
  | .bodyData _ => (0x00#8, 0x00#8)
  | .escDle => (0x10#8, 0xFF#8)
  | .frameEnd => (0x03#8, 0xFF#8)
  | .bodyEscStx => (0x02#8, 0xFF#8)
  | .badEscape _ => (0x00#8, 0x00#8)
  | .bst93 _ => (0x93#8, 0xFF#8)
  | .bst94 _ => (0x94#8, 0xFF#8)
  | .bst95 _ => (0x95#8, 0xFF#8)
  | .bstD0 _ => (0xD0#8, 0xFF#8)
  | .bstUnknown _ _ => (0x00#8, 0x00#8)
  | .reset => (0x00#8, 0xFF#8)
  | .feed _ => (0x01#8, 0xFF#8)
  | .feedChunk _ => (0x02#8, 0xFF#8)
  | .encodeFrame _ => (0x03#8, 0xFF#8)
  | .encodeBst _ => (0x04#8, 0xFF#8)

/-- The bytes of a table word: bit 0 is the least significant bit of the first byte. -/
def tableBytes (nbits w : Nat) : List Byte :=
  (List.range (nbits / 8)).map fun k => BitVec.ofNat 8 (w >>> (8 * k))

/-- DESIGN CHOICE (log 7): the table's words are unique only within one decode point, so a bare word
is read as a host operation where its first byte is an assigned code, else as a raw frame where it
is a BST identifier, else as a wire symbol in SCAN, the state after reset. -/
def tablePoint : List Byte → DecodePoint
  | [] => .hostOp
  | b :: _ =>
    if b.toNat ≤ 4 then .hostOp
    else if isBstId b then .frame
    else .wire .scan

/-- How many operand bytes an operation of `code` has at least (`operands` holds the tag of
ENCODE_BST). -/
def leastOperands (code : Byte) (operands : List Byte) : Nat :=
  if code = opFeed then 1
  else if code = opEncodeBst then
    match operands with
    | [] => 1
    | tag :: _ =>
      if tag = idBst93 then 6 else if tag = idBst94 then 6
      else if tag = idBst95 then 10 else if tag = idBstD0 then 11 else 1
  else 0

/-- The table word with zero operand bytes where it gives the operation too few. -/
def padded : List Byte → List Byte
  | [] => []
  | code :: operands =>
    match tablePoint (code :: operands) with
    | .hostOp =>
      code :: (operands ++
        List.replicate (leastOperands code operands - operands.length) 0x00#8)
    | .wire _ => code :: operands
    | .frame => code :: operands

/-- The instruction the decoder reads from a table word (log 7). -/
def decodeTableWord (nbits w : Nat) : Option Instr :=
  match decode (tablePoint (tableBytes nbits w)) (padded (tableBytes nbits w)) with
  | .ok i => some i
  | .error _ => none

end Sys2Proof
end

