-- ==== Sys2Proof/Machine/State.lean ====
section
/-! DEFINITION. The state of one instance as plain data (spec/10_state.md), the events and errors it
delivers (R20, R22, R126, R127), and the ways a step can stop. -/

namespace Sys2Proof.Machine

/-- R22: the protocol name of a message event, a constant. Its text is `Protocol.name`. -/
inductive Protocol where
  | bst
  deriving DecidableEq, Repr

/-- R127: what a layout length error points at. -/
inductive LenField where
  /-- The header size (HEADER). -/
  | header
  /-- The length byte L. -/
  | l
  /-- The data-length byte DL. -/
  | dl
  /-- The 16-bit length LL. -/
  | ll
  /-- The data maximum (DATA). -/
  | data
  deriving DecidableEq, Repr

/-- R126: the kinds of the error taxonomy. Their codes are `ErrKind.code`. -/
inductive ErrKind where
  | checksumMismatch
  | unescapedControlByte
  | frameTooLarge
  | unknownMessageType
  | layoutLengthMismatch
  | transportNotConnected
  deriving DecidableEq, Repr

/-- R126, R127: an error kind with the information recorded with it. -/
inductive CodecError where
  /-- R76: no checksum byte, or a byte sum that is not 0 modulo 256. -/
  | checksumMismatch (bodyLen : Nat) (received : Option Byte) (expected : Option Byte)
  /-- R77, R79: the byte that followed a lone DLE, and how many bytes were discarded. -/
  | unescapedControlByte (byte : Byte) (bufLen : Nat)
  /-- R78, R84: the limit is MAX_FRAME. -/
  | frameTooLarge (limit : Nat)
  /-- R91: the identifier and the raw frame's length. -/
  | unknownMessageType (id : Byte) (len : Nat)
  /-- R90, R92, R93, R97, R98, R101, R102, R112. -/
  | layoutLengthMismatch (id : Option Byte) (field : LenField) (declared : Nat) (actual : Nat)
  /-- R129: in the enumeration, raised by no rule of the block. That it carries no information is the
  model's choice: the table of R127 has no row for this kind (DESIGN CHOICE, log 22). -/
  | transportNotConnected
  deriving DecidableEq, Repr

/-- R20: an event of the Dispatch Surface. -/
inductive Event where
  /-- R22: a decoded message, `Msg(protocol, tag, rec)`. -/
  | msg (protocol : Protocol) (tag : Byte) (record : BstRec)
  /-- A decode failure, `Err(kind, info)`. -/
  | err (e : CodecError)
  deriving DecidableEq, Repr

/-- R63, R83, R84, R108: what ENCODE_FRAME or ENCODE_BST returns to the host. -/
inductive OpResult where
  /-- `Ok(W)`: the bytes appended to `txout`. -/
  | ok (bytes : List Byte)
  /-- `Refused(kind, info)`: nothing appended. -/
  | refused (e : CodecError)
  deriving DecidableEq, Repr

/-- R13: the complete state of the block, exactly four elements. By R27 there is no other: what the
message decoder and the two encoders do is a function of these, of `MAX_FRAME` and of the operands. -/
structure Block where
  /-- R15: the RX decoder state. -/
  rxState : RxState
  /-- R17: the accumulation buffer. -/
  buf : List Byte
  /-- R20: the output event stream. -/
  evt : List Event
  /-- R21: the TX output stream. -/
  txout : List Byte
  deriving DecidableEq, Repr

/-- R5: the host agent's side of the interface, outside the block. `Host.Core` gives a step no
argument and no returned value, so both stand here (DESIGN CHOICE, logs 1 and 3). -/
structure HostSide where
  /-- Log 1: the host operations not yet issued, the next first, each as its code and operand
  bytes. Only the fetch of a step reads them. -/
  ops : List (List Byte)
  /-- Log 3: the values the encode operations returned, in operation order. Nothing reads them. -/
  results : List OpResult
  deriving DecidableEq, Repr

/-- One instance: the block, its host's side of the interface, and its configuration (R23). -/
structure State extends Block, HostSide where
  /-- R6, R23: the instantiation parameter; no step changes it. -/
  cfg : Config
  deriving DecidableEq, Repr

/-- The block has no fault: "an error never transfers control, never stops the block" (R125), and
"no operation stops, faults or refuses because of its input bytes" (R122). Nothing raises one
(log 11). -/
inductive Fault where
  deriving DecidableEq, Repr

/-- Why a step has no next state. -/
inductive Refusal where
  /-- An instruction of the table without a meaning; no arm of `exec` answers it. Safe. -/
  | notModelled (mnemonic : String)
  /-- R124: an unassigned host operation code; raised by `step`'s decoding. Safe: the spec gives no
  step either. -/
  | unassignedOpcode (code : Byte)
  /-- R124: a host operation with an ill-typed operand; raised by `step`'s decoding. Safe: as
  above. -/
  | illTypedOperand (code : Byte)
  /-- Log 6: a host operation of no bytes, which no host can issue; raised by `step`'s decoding.
  Safe. -/
  | noOpcode
  deriving DecidableEq, Repr

/-- R138: the state at power-on, with the default MAX_FRAME (R6) and no host operation issued
(logs 1, 3 and 4). -/
def State.reset : State :=
  { rxState := .scan, buf := [], evt := [], txout := [],
    cfg := Config.default, ops := [], results := [] }

end Sys2Proof.Machine
end

