-- ==== Sys2Proof/Machine/Flags.lean ====
section
/-! DEFINITION. The block has no condition flags (spec/10_state.md R19). This file holds the one
computed check it makes, the additive checksum (spec/30_encoding.md R44), and the flag-like facts
that R19 reads off `rx_state`. -/

namespace Sys2Proof.Machine

/-- R10: `sum8(L) = (sum of all bytes of L) mod 256`. -/
def sum8 : List Byte → Byte
  | [] => 0#8
  | b :: rest => b + sum8 rest

/-- R44, R85: `c = (0 - sum8(P)) mod 256`. -/
def checksum (payload : List Byte) : Byte := 0#8 - sum8 payload

/-- R44: the receiver's check on the de-stuffed buffer, data block and checksum byte together. -/
def verifies (buf : List Byte) : Bool := sum8 buf = 0#8

/-- R19: "an escape is pending". -/
def escapePending (st : RxState) : Bool := st = .bodyEsc

/-- R19: "the previous discarded byte was a DLE". -/
def previousWasDle (st : RxState) : Bool := st = .scanDle

/-- R15: the numeric value of `rx_state`. -/
def rxCode : RxState → BitVec 2
  | .scan => 0#2
  | .scanDle => 1#2
  | .body => 2#2
  | .bodyEsc => 3#2

/-- R126: the numeric code of an error kind. -/
def ErrKind.code : ErrKind → Nat
  | .checksumMismatch => 1
  | .unescapedControlByte => 2
  | .frameTooLarge => 3
  | .unknownMessageType => 4
  | .layoutLengthMismatch => 5
  | .transportNotConnected => 6

/-- R126: the kind of an error. -/
def CodecError.kind : CodecError → ErrKind
  | .checksumMismatch _ _ _ => .checksumMismatch
  | .unescapedControlByte _ _ => .unescapedControlByte
  | .frameTooLarge _ => .frameTooLarge
  | .unknownMessageType _ _ => .unknownMessageType
  | .layoutLengthMismatch _ _ _ _ => .layoutLengthMismatch
  | .transportNotConnected => .transportNotConnected

/-- R126: the layer of an error kind. -/
inductive Layer where
  | frame
  | message
  | transport
  deriving DecidableEq, Repr

/-- R126: the "layer" column. -/
def ErrKind.layer : ErrKind → Layer
  | .checksumMismatch => .frame
  | .unescapedControlByte => .frame
  | .frameTooLarge => .frame
  | .unknownMessageType => .message
  | .layoutLengthMismatch => .message
  | .transportNotConnected => .transport

end Sys2Proof.Machine
end

