-- ==== Sys2Proof/Machine/Operands.lean ====
section
/-! DEFINITION. The fields of the four BST layouts: their extraction (spec/30_encoding.md R48 to
R58), their placement (R66, spec/43_message_encoder.md R109 to R112), and the functions derived from
them (R54, R55, R57, R59, R60). -/

namespace Sys2Proof.Machine

/-- R22: `protocol` is the constant string "BST". -/
def Protocol.name : Protocol → String
  | .bst => "BST"

/-! ### Derived values -/

/-- R59: PGN reconstruction, one function for all four variants. PRESUMED (log 13): the spec marks
the placement of the fields as general knowledge. -/
def pgn (dp : BitVec 2) (pf ps : Byte) : BitVec 18 :=
  dp.setWidth 18 * 65536#18 + pf.setWidth 18 * 256#18 +
    (if pf.toNat < 240 then 0#18 else ps.setWidth 18)

/-- R55: `dpD0(DPP) = DPP[1:0]`. PRESUMED (log 18). -/
def dpD0 (dpp : Byte) : BitVec 2 := dpp.extractLsb' 0 2

/-- R55: `prioD0(DPP) = DPP[4:2]`. PRESUMED (log 18). -/
def prioD0 (dpp : Byte) : BitVec 3 := dpp.extractLsb' 2 3

/-- R57: `seqD0(C) = C[7:5]`. PRESUMED (log 18). -/
def seqD0 (c : Byte) : BitVec 3 := c.extractLsb' 5 3

/-- R57: `pgnCtlD0(C) = C[4:0]`. PRESUMED (log 18). -/
def pgnCtlD0 (c : Byte) : BitVec 5 := c.extractLsb' 0 5

/-- R24 to R26: the derived PGN of a record. -/
def pgnOf : BstRec → BitVec 18
  | .bst93 r => pgn r.dp r.pduf r.pdus
  | .bst94 r => pgn r.dp r.pduf r.pdus
  | .bst95 r => pgn r.dp r.pduf r.pdus
  | .bstD0 r => pgn (dpD0 r.dpp) r.pduf r.pdus

/-- R60: the destination address; BST 95 has one only for a PDU1 frame. -/
def dstOf : BstRec → Option Byte
  | .bst93 r => some r.dst
  | .bst94 r => some r.dst
  | .bst95 r => if r.pduf.toNat < 240 then some r.pdus else none
  | .bstD0 r => some r.dst

/-- R54: the tick length selected by `trc`, in nanoseconds (log 20). -/
def tickNs (trc : BitVec 2) : Nat :=
  match trc.toNat with
  | 0 => 1000000
  | 1 => 100000
  | 2 => 10000
  | _ => 1000

/-- R54: "The rollover period is `65536 x` the tick". In nanoseconds (log 20). -/
def rolloverNs (trc : BitVec 2) : Nat := 65536 * tickNs trc

/-! ### Extraction from a raw frame

Each function takes the raw frame's bytes after the identifier, so `tail.length + 1` is the rules'
`n`, and `none` is a frame shorter than its header. -/

/-- R48: offsets 1 to 7 and the data of BST 93 and 94. -/
structure NgtLayout where
  l : Byte
  p : Byte
  pdus : Byte
  pduf : Byte
  dp : Byte
  d : Byte
  dl : Byte
  data : List Byte
  deriving DecidableEq, Repr

/-- R48: the layout of BST 93 and 94, offset by offset. -/
def ngtLayout : List Byte → Option NgtLayout
  | l :: p :: pdus :: pduf :: dp :: d :: dl :: data => some ⟨l, p, pdus, pduf, dp, d, dl, data⟩
  | _ => none

/-- R49, R94: the record of a BST 93 or 94 layout; `P[7:3]` and `DP[7:2]` are ignored. -/
def ngtRecord (y : NgtLayout) : Bst93Rec :=
  { prio := y.p.extractLsb' 0 3, pdus := y.pdus, pduf := y.pduf, dp := y.dp.extractLsb' 0 2,
    dst := y.d, data := y.data }

/-- R51: offsets 1 to 7 and the data of BST 95. -/
structure CanLayout where
  l : Byte
  t0 : Byte
  t1 : Byte
  s : Byte
  pdus : Byte
  pduf : Byte
  dppc : Byte
  data : List Byte
  deriving DecidableEq, Repr

/-- R51: the layout of BST 95, offset by offset. -/
def canLayout : List Byte → Option CanLayout
  | l :: t0 :: t1 :: s :: pdus :: pduf :: dppc :: data =>
    some ⟨l, t0, t1, s, pdus, pduf, dppc, data⟩
  | _ => none

/-- R53, R99: the record of a BST 95 layout: `dp = [1:0]`, `prio = [4:2]`, `trc = [6:5]`,
`dir = [7]` of DPPC. -/
def canRecord (y : CanLayout) : Bst95Rec :=
  { ts := le16 y.t0 y.t1, trc := y.dppc.extractLsb' 5 2, src := y.s, pdus := y.pdus,
    pduf := y.pduf, dp := y.dppc.extractLsb' 0 2, prio := y.dppc.extractLsb' 2 3,
    dir := y.dppc.extractLsb' 7 1, data := y.data }

/-- R55: offsets 1 to 12 and the data of BST D0. -/
structure N2kLayout where
  ll0 : Byte
  ll1 : Byte
  d : Byte
  s : Byte
  pdus : Byte
  pduf : Byte
  dpp : Byte
  c : Byte
  t0 : Byte
  t1 : Byte
  t2 : Byte
  t3 : Byte
  data : List Byte
  deriving DecidableEq, Repr

/-- R55: the layout of BST D0, offset by offset. -/
def n2kLayout : List Byte → Option N2kLayout
  | ll0 :: ll1 :: d :: s :: pdus :: pduf :: dpp :: c :: t0 :: t1 :: t2 :: t3 :: data =>
    some ⟨ll0, ll1, d, s, pdus, pduf, dpp, c, t0, t1, t2, t3, data⟩
  | _ => none

/-- R103: the record of a BST D0 layout. -/
def n2kRecord (y : N2kLayout) : BstD0Rec :=
  { dst := y.d, src := y.s, pdus := y.pdus, pduf := y.pduf, dpp := y.dpp, ctrl := y.c,
    ts := le32 y.t0 y.t1 y.t2 y.t3, data := y.data }

/-! ### Placement by the encoder -/

/-- R112: the data maximum of a tag's records. -/
def maxData : BstRec → Nat
  | .bst93 _ => 249
  | .bst94 _ => 249
  | .bst95 _ => 8
  | .bstD0 _ => 1785

/-- R112: `BstValid(tag, rec)`. -/
def bstValid (r : BstRec) : Bool := r.data.length ≤ maxData r

/-- R109: the layout of BST 93 and 94; reserved bits are written 0. -/
def ngtPayload (tag : Byte) (r : Bst93Rec) : List Byte :=
  [tag, BitVec.ofNat 8 (6 + r.data.length), r.prio.setWidth 8, r.pdus, r.pduf, r.dp.setWidth 8,
    r.dst, BitVec.ofNat 8 r.data.length] ++ r.data

/-- R110: `dppc = dp + 4*prio + 32*trc + 128*dir`. -/
def dppcOf (r : Bst95Rec) : Byte :=
  r.dp.setWidth 8 + 4#8 * r.prio.setWidth 8 + 32#8 * r.trc.setWidth 8 + 128#8 * r.dir.setWidth 8

/-- R110: the layout of BST 95. -/
def canPayload (r : Bst95Rec) : List Byte :=
  [idBst95, BitVec.ofNat 8 (6 + r.data.length), byteOf r.ts 0, byteOf r.ts 1, r.src, r.pdus, r.pduf,
    dppcOf r] ++ r.data

/-- R111: the layout of BST D0. -/
def n2kPayload (r : BstD0Rec) : List Byte :=
  [idBstD0, byteOf (BitVec.ofNat 16 r.data.length) 0, byteOf (BitVec.ofNat 16 r.data.length) 1,
    r.dst, r.src, r.pdus, r.pduf, r.dpp, r.ctrl, byteOf r.ts 0, byteOf r.ts 1, byteOf r.ts 2,
    byteOf r.ts 3] ++ r.data

/-- R108 to R111: `BstLayout(tag, rec)`. -/
def bstLayout : BstRec → List Byte
  | .bst93 r => ngtPayload idBst93 r
  | .bst94 r => ngtPayload idBst94 r
  | .bst95 r => canPayload r
  | .bstD0 r => n2kPayload r

end Sys2Proof.Machine
end

