-- ==== Sys2Proof/Machine/Ops.lean ====
section
/-! DEFINITION. The shared operations: emitting an event, raising a frame error, Append and Overflow
(spec/40_frame_decoder.md R74, R78), the message decoder's events (spec/42_message_decoder.md), the
frame encoder's bytes (spec/41_frame_encoder.md), and fetching the next host operation. -/

namespace Sys2Proof.Machine

/-! ### Events and errors -/

/-- R10, R20: append one event. -/
def emit (e : Event) (s : State) : State := { s with evt := s.evt ++ [e] }

/-- R125, R132: raising a frame-layer error. It appends one `Err`, discards the frame, and goes on
in `next`; nothing is saved, and the next byte is processed by the state left here (R133), so there
is no return operation. -/
def raise (e : CodecError) (next : RxState) (s : State) : State :=
  { s with evt := s.evt ++ [.err e], buf := [], rxState := next }

/-- R63: return a value to the host (log 3). -/
def answer (r : OpResult) (s : State) : State := { s with results := s.results ++ [r] }

/-! ### The accumulation buffer -/

/-- R78: the frame is too large; the byte that overflowed is discarded. -/
def overflow (s : State) : State := raise (.frameTooLarge s.cfg.maxFrame) .scan s

/-- R74: `Append(x)`. -/
def append (x : Byte) (s : State) : State :=
  if s.buf.length = s.cfg.maxFrame + 1 then overflow s else { s with buf := s.buf ++ [x] }

/-- R69, R77: a frame opens with an empty buffer. -/
def openFrame (s : State) : State := { s with buf := [], rxState := .body }

/-- R76, R119, R138: back to Scanning with an empty buffer. -/
def toScan (s : State) : State := { s with buf := [], rxState := .scan }

/-! ### The message decoder's events -/

/-- R22, R95, R96, R100, R104: the message event of a record. -/
def msgEvent (r : BstRec) : Event := .msg .bst r.tag r

/-- R127: a layout length error. -/
def lengthError (id : Option Byte) (field : LenField) (declared actual : Nat) : Event :=
  .err (.layoutLengthMismatch id field declared actual)

/-- R90: the event of the empty raw frame. -/
def emptyFrameEvent : Event := lengthError none .header 1 0

/-- R92 to R94: `Decode9394(F, tag)` on `F = tag :: tail`, the record packed by `pack`. -/
def ngtEvent (tag : Byte) (pack : Bst93Rec → BstRec) (tail : List Byte) : Event :=
  let n := tail.length + 1
  match ngtLayout tail with
  | none => lengthError (some tag) .header 8 n
  | some y =>
    if y.l.toNat ≠ n - 2 then lengthError (some tag) .l y.l.toNat (n - 2)
    else if y.dl.toNat ≠ n - 8 then lengthError (some tag) .dl y.dl.toNat (n - 8)
    else msgEvent (pack (ngtRecord y))

/-- R97 to R99: `Decode95(F)` on `F = 95 :: tail`. -/
def canEvent (tail : List Byte) : Event :=
  let n := tail.length + 1
  match canLayout tail with
  | none => lengthError (some idBst95) .header 8 n
  | some y =>
    if y.l.toNat ≠ n - 2 then lengthError (some idBst95) .l y.l.toNat (n - 2)
    else if n - 8 > 8 then lengthError (some idBst95) .data 8 (n - 8)
    else msgEvent (.bst95 (canRecord y))

/-- R101 to R103: `DecodeD0(F)` on `F = D0 :: tail`. -/
def n2kEvent (tail : List Byte) : Event :=
  let n := tail.length + 1
  match n2kLayout tail with
  | none => lengthError (some idBstD0) .header 13 n
  | some y =>
    let ll := (le16 y.ll0 y.ll1).toNat
    if ll > 1785 then lengthError (some idBstD0) .data 1785 ll
    else if ll ≠ n - 13 then lengthError (some idBstD0) .ll ll (n - 13)
    else msgEvent (.bstD0 (n2kRecord y))

/-- R91: `DecodeUnknown(F)` on `F = id :: tail`. -/
def unknownEvent (id : Byte) (tail : List Byte) : Event :=
  .err (.unknownMessageType id (tail.length + 1))

/-! ### The frame encoder's bytes -/

/-- R43, R86: every 0x10 doubled. -/
def stuff : List Byte → List Byte
  | [] => []
  | b :: rest => if b = dle then dle :: dle :: stuff rest else b :: stuff rest

/-- R42, R83: `W`, the frame on the wire of a payload. -/
def wireFrame (payload : List Byte) : List Byte :=
  [dle, stx] ++ stuff (payload ++ [checksum payload]) ++ [dle, etx]

/-- R83, R84: ENCODE_FRAME, from its size check to the value it returns. -/
def transmit (payload : List Byte) (s : State) : State :=
  if payload.length > s.cfg.maxFrame then answer (.refused (.frameTooLarge s.cfg.maxFrame)) s
  else answer (.ok (wireFrame payload)) { s with txout := s.txout ++ wireFrame payload }

/-! ### Fetching a host operation -/

/-- The next host operation's bytes, and the state in which it has been issued (log 1). -/
def fetchOp (s : State) : Option (List Byte × State) :=
  match s.ops with
  | [] => none
  | op :: rest => some (op, { s with ops := rest })

/-- R124: the refusal of a host operation that does not decode. -/
def refusalOf : Undecodable → Refusal
  | .noBytes => .noOpcode
  | .notOneByte => .noOpcode
  | .unassignedOpcode code => .unassignedOpcode code
  | .illTypedOperand code => .illTypedOperand code

end Sys2Proof.Machine
end

