-- ==== Sys2Proof/Machine/Bst.lean ====
section
/-! DEFINITION. The five BST raw-frame rows, each appending its one event (spec/42_message_decoder.md
R89 to R107), and `BstDecode`. They change neither `rx_state` nor `buf`. -/

namespace Sys2Proof.Machine

/-- R92 to R95: BST93. -/
def bst93 (tail : List Byte) (s : State) : State := emit (ngtEvent idBst93 .bst93 tail) s

/-- R96: BST94. -/
def bst94 (tail : List Byte) (s : State) : State := emit (ngtEvent idBst94 .bst94 tail) s

/-- R97 to R100: BST95. -/
def bst95 (tail : List Byte) (s : State) : State := emit (canEvent tail) s

/-- R101 to R104: BSTD0. -/
def bstD0 (tail : List Byte) (s : State) : State := emit (n2kEvent tail) s

/-- R91: BST_UNKNOWN. -/
def bstUnknown (id : Byte) (tail : List Byte) (s : State) : State := emit (unknownEvent id tail) s

/-- R89: what the row selected by a raw frame does. The rows of the other two decode points are
never selected by a raw frame. -/
def runFrameRow (i : Instr) (s : State) : State :=
  match i with
  | .bst93 tail => bst93 tail s
  | .bst94 tail => bst94 tail s
  | .bst95 tail => bst95 tail s
  | .bstD0 tail => bstD0 tail s
  | .bstUnknown id tail => bstUnknown id tail s
  | .scanOther _ | .scanGotDle | .frameStart | .scanDleDle | .scanDleOther _ | .bodyDle
  | .bodyData _ | .escDle | .frameEnd | .bodyEscStx | .badEscape _ => s
  | .reset | .feed _ | .feedChunk _ | .encodeFrame _ | .encodeBst _ => s

/-- R89, R90: `BstDecode(F)`. -/
def bstDecode (frame : List Byte) (s : State) : State :=
  match decodeFrame frame with
  | none => emit emptyFrameEvent s
  | some i => runFrameRow i s

/-- R92 to R95: BST93. -/
def execBst93 (tail : List Byte) (s : State) : Host.Outcome State Fault Refusal :=
  .next (bst93 tail s)

/-- R96: BST94. -/
def execBst94 (tail : List Byte) (s : State) : Host.Outcome State Fault Refusal :=
  .next (bst94 tail s)

/-- R97 to R100: BST95. -/
def execBst95 (tail : List Byte) (s : State) : Host.Outcome State Fault Refusal :=
  .next (bst95 tail s)

/-- R101 to R104: BSTD0. -/
def execBstD0 (tail : List Byte) (s : State) : Host.Outcome State Fault Refusal :=
  .next (bstD0 tail s)

/-- R91: BST_UNKNOWN. -/
def execBstUnknown (id : Byte) (tail : List Byte) (s : State) :
    Host.Outcome State Fault Refusal :=
  .next (bstUnknown id tail s)

end Sys2Proof.Machine
end

