-- ==== Sys2Proof/Machine/Wire.lean ====
section
/-! DEFINITION. The eleven wire-symbol rows, the arms of the frame decoder
(spec/40_frame_decoder.md R67 to R79). Each arm holds the guard its pseudocode holds: with the guard
false it does nothing (log 9). -/

namespace Sys2Proof.Machine

/-- R67: "skip", guard or not. -/
def scanOther (_b : Byte) (s : State) : State := s

/-- R68. -/
def scanGotDle (s : State) : State :=
  if s.rxState = .scan then { s with rxState := .scanDle } else s

/-- R69. -/
def frameStart (s : State) : State := if s.rxState = .scanDle then openFrame s else s

/-- R70: "skip", guard or not. -/
def scanDleDle (s : State) : State := s

/-- R71. -/
def scanDleOther (b : Byte) (s : State) : State :=
  if s.rxState = .scanDle ∧ b ≠ stx ∧ b ≠ dle then { s with rxState := .scan } else s

/-- R72. -/
def bodyDle (s : State) : State :=
  if s.rxState = .body then { s with rxState := .bodyEsc } else s

/-- R73. -/
def bodyData (b : Byte) (s : State) : State :=
  if s.rxState = .body ∧ b ≠ dle then append b s else s

/-- R75. -/
def escDle (s : State) : State :=
  if s.rxState = .bodyEsc then append dle { s with rxState := .body } else s

/-- R76, R80: the frame ends. A verified frame is handed to `BstDecode` before the buffer is
cleared. -/
def frameEnd (s : State) : State :=
  if s.rxState = .bodyEsc then
    if s.buf.length = 0 then raise (.checksumMismatch 0 none none) .scan s
    else if verifies s.buf then toScan (bstDecode s.buf.dropLast s)
    else
      raise (.checksumMismatch (s.buf.length - 1) s.buf.getLast?
        (some (checksum s.buf.dropLast))) .scan s
  else s

/-- R77: the error, then the `10 02` opens the next frame. -/
def bodyEscStx (s : State) : State :=
  if s.rxState = .bodyEsc then raise (.unescapedControlByte stx s.buf.length) .body s else s

/-- R79. -/
def badEscape (b : Byte) (s : State) : State :=
  if s.rxState = .bodyEsc ∧ b ≠ stx ∧ b ≠ etx ∧ b ≠ dle then
    raise (.unescapedControlByte b s.buf.length) .scan s
  else s

/-- R81, R117: what the row selected by (`rx_state`, byte) does. The rows of the other two decode
points are never selected by an input byte. -/
def runWireRow (i : Instr) (s : State) : State :=
  match i with
  | .scanOther b => scanOther b s
  | .scanGotDle => scanGotDle s
  | .frameStart => frameStart s
  | .scanDleDle => scanDleDle s
  | .scanDleOther b => scanDleOther b s
  | .bodyDle => bodyDle s
  | .bodyData b => bodyData b s
  | .escDle => escDle s
  | .frameEnd => frameEnd s
  | .bodyEscStx => bodyEscStx s
  | .badEscape b => badEscape b s
  | .bst93 _ | .bst94 _ | .bst95 _ | .bstD0 _ | .bstUnknown _ _ => s
  | .reset | .feed _ | .feedChunk _ | .encodeFrame _ | .encodeBst _ => s

/-- R67: SCAN_OTHER. -/
def execScanOther (b : Byte) (s : State) : Host.Outcome State Fault Refusal :=
  .next (scanOther b s)

/-- R68: SCAN_GOT_DLE. -/
def execScanGotDle (s : State) : Host.Outcome State Fault Refusal := .next (scanGotDle s)

/-- R69: FRAME_START. -/
def execFrameStart (s : State) : Host.Outcome State Fault Refusal := .next (frameStart s)

/-- R70: SCAN_DLE_DLE. -/
def execScanDleDle (s : State) : Host.Outcome State Fault Refusal := .next (scanDleDle s)

/-- R71: SCAN_DLE_OTHER. -/
def execScanDleOther (b : Byte) (s : State) : Host.Outcome State Fault Refusal :=
  .next (scanDleOther b s)

/-- R72: BODY_DLE. -/
def execBodyDle (s : State) : Host.Outcome State Fault Refusal := .next (bodyDle s)

/-- R73: BODY_DATA. -/
def execBodyData (b : Byte) (s : State) : Host.Outcome State Fault Refusal :=
  .next (bodyData b s)

/-- R75: ESC_DLE. -/
def execEscDle (s : State) : Host.Outcome State Fault Refusal := .next (escDle s)

/-- R76: FRAME_END. -/
def execFrameEnd (s : State) : Host.Outcome State Fault Refusal := .next (frameEnd s)

/-- R77: BODY_ESC_STX. -/
def execBodyEscStx (s : State) : Host.Outcome State Fault Refusal := .next (bodyEscStx s)

/-- R79: BAD_ESCAPE. -/
def execBadEscape (b : Byte) (s : State) : Host.Outcome State Fault Refusal :=
  .next (badEscape b s)

end Sys2Proof.Machine
end

