-- ==== Sys2Proof/Machine/HostOps.lean ====
section
/-! DEFINITION. The five host operations (spec/45_host_operations.md R117 to R119,
spec/41_frame_encoder.md R83, spec/43_message_encoder.md R108), each one atomic step (R34). -/

namespace Sys2Proof.Machine

/-- R117: apply the one arm selected by (`rx_state`, `b`). -/
def feed (b : Byte) (s : State) : State := runWireRow (decodeWire s.rxState b) s

/-- R118: FEED of each byte in order. -/
def feedChunk : List Byte → State → State
  | [], s => s
  | b :: rest, s => feedChunk rest (feed b s)

/-- R112: the value a record with too much data is refused with. -/
def recordRefusal (r : BstRec) : CodecError :=
  .layoutLengthMismatch (some r.tag) .data (maxData r) r.data.length

/-- R108, R112: ENCODE_BST, from its validity check to the value it returns. -/
def transmitRecord (r : BstRec) (s : State) : State :=
  if bstValid r then transmit (bstLayout r) s else answer (.refused (recordRefusal r)) s

/-- R119: RESET. `evt` and `txout` stay as they were. -/
def execReset (s : State) : Host.Outcome State Fault Refusal := .next (toScan s)

/-- R117: FEED. -/
def execFeed (b : Byte) (s : State) : Host.Outcome State Fault Refusal := .next (feed b s)

/-- R118: FEED_CHUNK. -/
def execFeedChunk (bs : List Byte) (s : State) : Host.Outcome State Fault Refusal :=
  .next (feedChunk bs s)

/-- R83: ENCODE_FRAME. -/
def execEncodeFrame (payload : List Byte) (s : State) : Host.Outcome State Fault Refusal :=
  .next (transmit payload s)

/-- R108: ENCODE_BST. -/
def execEncodeBst (r : BstRec) (s : State) : Host.Outcome State Fault Refusal :=
  .next (transmitRecord r s)

end Sys2Proof.Machine
end

