-- ==== Sys2Proof/Machine/Dispatch.lean ====
section
/-! DEFINITION. One arm per row of spec/opcode_table.json. -/

namespace Sys2Proof.Machine

def exec (i : Instr) (s : State) : Host.Outcome State Fault Refusal :=
  match i with
  -- wire symbols
  | .scanOther b => Sys2Proof.Machine.execScanOther b s
  | .scanGotDle => Sys2Proof.Machine.execScanGotDle s
  | .frameStart => Sys2Proof.Machine.execFrameStart s
  | .scanDleDle => Sys2Proof.Machine.execScanDleDle s
  | .scanDleOther b => Sys2Proof.Machine.execScanDleOther b s
  | .bodyDle => Sys2Proof.Machine.execBodyDle s
  | .bodyData b => Sys2Proof.Machine.execBodyData b s
  | .escDle => Sys2Proof.Machine.execEscDle s
  | .frameEnd => Sys2Proof.Machine.execFrameEnd s
  | .bodyEscStx => Sys2Proof.Machine.execBodyEscStx s
  | .badEscape b => Sys2Proof.Machine.execBadEscape b s
  -- BST raw frames
  | .bst93 tail => Sys2Proof.Machine.execBst93 tail s
  | .bst94 tail => Sys2Proof.Machine.execBst94 tail s
  | .bst95 tail => Sys2Proof.Machine.execBst95 tail s
  | .bstD0 tail => Sys2Proof.Machine.execBstD0 tail s
  | .bstUnknown id tail => Sys2Proof.Machine.execBstUnknown id tail s
  -- host operations
  | .reset => Sys2Proof.Machine.execReset s
  | .feed b => Sys2Proof.Machine.execFeed b s
  | .feedChunk bs => Sys2Proof.Machine.execFeedChunk bs s
  | .encodeFrame payload => Sys2Proof.Machine.execEncodeFrame payload s
  | .encodeBst r => Sys2Proof.Machine.execEncodeBst r s

end Sys2Proof.Machine
end

