-- ==== Sys2Proof/Machine/Step.lean ====
section
/-! DEFINITION. One step of the block: one host operation (spec/00_scope.md R5, spec/20_memory.md
R34), decoded and executed. -/

namespace Sys2Proof.Machine

/-- R5, R34, R124: issue the next host operation. With none waiting the block stays as it is
(log 2). -/
def step (s : State) : Host.Outcome State Fault Refusal :=
  match fetchOp s with
  | none => .next s
  | some (op, issued) =>
    match decode .hostOp op with
    | .ok i => exec i issued
    | .error why => .refused (refusalOf why)

/-- `s` made ready so that the next step runs the instruction of a table word (logs 7 and 8): a host
operation is put first among those waiting; a raw frame is in the buffer, verified but for its
terminating ETX, which is fed; a wire symbol is fed in SCAN. -/
def State.withFetchWord (s : State) (nbits w : Nat) : State :=
  let bytes := padded (tableBytes nbits w)
  match tablePoint bytes with
  | .hostOp => { s with ops := bytes :: s.ops }
  | .wire st => { s with rxState := st, ops := (opFeed :: bytes) :: s.ops }
  | .frame =>
    { s with rxState := .bodyEsc, buf := bytes ++ [checksum bytes],
             ops := [opFeed, etx] :: s.ops }

end Sys2Proof.Machine
end

