-- ==== Sys2Proof/Safety.lean ====
section
/-! DEFINITION. What counts as a safe state and a safe run, in the terms the statements use, and the
message decoder once more as the rules write it, by offset (R10, R89 to R103), for the machine to be
held against. -/

namespace Sys2Proof.Machine

/-! ### The message decoder by offset -/

/-- R10: `MemRead(F, off, 1)`. The default is never read: each rule checks the length first. -/
def memRead1 (f : List Byte) (off : Nat) : Byte := f.getD off 0#8

/-- R10: `MemRead(F, off, 2)`. -/
def memRead2 (f : List Byte) (off : Nat) : BitVec 16 := le16 (memRead1 f off) (memRead1 f (off + 1))

/-- R10: `MemRead(F, off, 4)`. -/
def memRead4 (f : List Byte) (off : Nat) : BitVec 32 :=
  le32 (memRead1 f off) (memRead1 f (off + 1)) (memRead1 f (off + 2)) (memRead1 f (off + 3))

/-- R92 to R94: `Decode9394(F, tag)`. -/
def ngtByOffset (tag : Byte) (pack : Bst93Rec → BstRec) (f : List Byte) : Event :=
  let n := f.length
  if n < 8 then .err (.layoutLengthMismatch (some tag) .header 8 n)
  else if (memRead1 f 1).toNat ≠ n - 2 then
    .err (.layoutLengthMismatch (some tag) .l (memRead1 f 1).toNat (n - 2))
  else if (memRead1 f 7).toNat ≠ n - 8 then
    .err (.layoutLengthMismatch (some tag) .dl (memRead1 f 7).toNat (n - 8))
  else .msg .bst tag (pack
    { prio := (memRead1 f 2).extractLsb' 0 3, pdus := memRead1 f 3, pduf := memRead1 f 4,
      dp := (memRead1 f 5).extractLsb' 0 2, dst := memRead1 f 6, data := f.drop 8 })

/-- R97 to R99: `Decode95(F)`. -/
def canByOffset (f : List Byte) : Event :=
  let n := f.length
  let c := memRead1 f 7
  if n < 8 then .err (.layoutLengthMismatch (some 0x95#8) .header 8 n)
  else if (memRead1 f 1).toNat ≠ n - 2 then
    .err (.layoutLengthMismatch (some 0x95#8) .l (memRead1 f 1).toNat (n - 2))
  else if n - 8 > 8 then .err (.layoutLengthMismatch (some 0x95#8) .data 8 (n - 8))
  else .msg .bst 0x95#8 (.bst95
    { ts := memRead2 f 2, trc := c.extractLsb' 5 2, src := memRead1 f 4, pdus := memRead1 f 5,
      pduf := memRead1 f 6, dp := c.extractLsb' 0 2, prio := c.extractLsb' 2 3,
      dir := c.extractLsb' 7 1, data := f.drop 8 })

/-- R101 to R103: `DecodeD0(F)`. -/
def n2kByOffset (f : List Byte) : Event :=
  let n := f.length
  let ll := (memRead2 f 1).toNat
  if n < 13 then .err (.layoutLengthMismatch (some 0xD0#8) .header 13 n)
  else if ll > 1785 then .err (.layoutLengthMismatch (some 0xD0#8) .data 1785 ll)
  else if ll ≠ n - 13 then .err (.layoutLengthMismatch (some 0xD0#8) .ll ll (n - 13))
  else .msg .bst 0xD0#8 (.bstD0
    { dst := memRead1 f 3, src := memRead1 f 4, pdus := memRead1 f 5, pduf := memRead1 f 6,
      dpp := memRead1 f 7, ctrl := memRead1 f 8, ts := memRead4 f 9, data := f.drop 13 })

/-- R89 to R91: the one event of `BstDecode(F)`. -/
def eventOfFrame (f : List Byte) : Event :=
  if f.length = 0 then .err (.layoutLengthMismatch none .header 1 0)
  else if memRead1 f 0 = 0x93#8 then ngtByOffset 0x93#8 .bst93 f
  else if memRead1 f 0 = 0x94#8 then ngtByOffset 0x94#8 .bst94 f
  else if memRead1 f 0 = 0x95#8 then canByOffset f
  else if memRead1 f 0 = 0xD0#8 then n2kByOffset f
  else .err (.unknownMessageType (memRead1 f 0) f.length)

/-- R114: a BST 93 or 94 frame with its reserved bits `F[2][7:3]` and `F[5][7:2]` cleared; any other
frame as it is. -/
def clearReserved (f : List Byte) : List Byte :=
  if memRead1 f 0 = 0x93#8 ∨ memRead1 f 0 = 0x94#8 then
    (f.set 2 (memRead1 f 2 &&& 0x07#8)).set 5 (memRead1 f 5 &&& 0x03#8)
  else f

/-! ### Safe states -/

/-- R17, R18: the buffer is bounded, and empty while scanning. -/
def RxOk (s : State) : Prop :=
  s.buf.length ≤ s.cfg.maxFrame + 1 ∧
    (s.rxState = .scan ∨ s.rxState = .scanDle → s.buf = [])

/-- R126, R127, R129: an error that the receive path of an instance of configuration `c` can
raise. -/
def ErrorOk (c : Config) : CodecError → Prop
  | .checksumMismatch bodyLen received expected =>
    (bodyLen = 0 ∧ received = none ∧ expected = none) ∨
      (∃ r e, received = some r ∧ expected = some e ∧ r ≠ e ∧ bodyLen ≤ c.maxFrame)
  | .unescapedControlByte b n => b ≠ dle ∧ b ≠ etx ∧ n ≤ c.maxFrame + 1
  | .frameTooLarge limit => limit = c.maxFrame
  | .unknownMessageType id len => isBstId id = false ∧ 1 ≤ len ∧ len ≤ c.maxFrame
  | .layoutLengthMismatch id field declared actual =>
    (match id with
      | none => field = .header ∧ declared = 1
      | some t => isBstId t = true) ∧
    (match field with
      | .header => actual < declared
      | .data => declared < actual
      | .l | .dl | .ll => declared ≠ actual)
  | .transportNotConnected => False

/-- R22, R24 to R26: an event the receive path can deliver. -/
def EventOk (c : Config) : Event → Prop
  | .msg protocol tag r => protocol = .bst ∧ tag = r.tag ∧ bstValid r = true
  | .err e => ErrorOk c e

/-- Every event delivered so far is one the receive path can deliver. -/
def EvtOk (s : State) : Prop := ∀ e ∈ s.evt, EventOk s.cfg e

/-- The bytes of the operations that returned `Ok`, in operation order. -/
def okBytes : List OpResult → List Byte
  | [] => []
  | .ok w :: rest => w ++ okBytes rest
  | .refused _ :: rest => okBytes rest

/-- R83, R84, R112: a value an encode operation of configuration `c` can return. -/
def ResultOk (c : Config) : OpResult → Prop
  | .ok w => ∃ payload, payload.length ≤ c.maxFrame ∧ w = wireFrame payload
  | .refused e =>
    e = .frameTooLarge c.maxFrame ∨ ∃ r, bstValid r = false ∧ e = recordRefusal r

/-- R21: `txout` is what the encode operations returned, whole and in operation order. -/
def TxOk (s : State) : Prop :=
  s.txout = okBytes s.results ∧ ∀ r ∈ s.results, ResultOk s.cfg r

/-- A state that a run can reach. -/
def Inv (s : State) : Prop := RxOk s ∧ EvtOk s ∧ TxOk s

/-! ### Safe runs -/

/-- An outcome with a next state. -/
def Completes (o : Host.Outcome State Fault Refusal) : Prop := ∃ s', o = .next s'

/-- R124: the only stop of a run is a host operation that does not decode. -/
def StopsOnlyOnBadOp (s : State) (o : Host.Outcome State Fault Refusal) : Prop :=
  Completes o ∨ ∃ op rest why, s.ops = op :: rest ∧ decode .hostOp op = .error why ∧
    o = .refused (refusalOf why)

end Sys2Proof.Machine
end

