-- ==== Sys2Proof/Certificates/Slice0/Obligations.lean ====
section
/-! DEFINITION. The statements for the provers, in the order of spec/: reset, the frame decoder's
arms, the message decoder's rows, the encoders, the host operations, the step, encodings, invariants,
and the whole-machine laws. Rules marked "[decision: ...]" are the spec's own decisions and are
cited as rules; rules marked "[derived: ...]" are inferences of the spec and have basis 'derived'. -/

open Sys2Proof Sys2Proof.Machine

/-! ### Reset -/

/-- R138: the state after power-on and after RESET, and what RESET leaves. -/
def Obligations.PowerOnAndResetState : Prop :=
  (State.reset.rxState = .scan ∧ State.reset.buf = [] ∧ State.reset.evt = [] ∧
    State.reset.txout = []) ∧
  ∀ s : State, exec .reset s = .next { s with rxState := .scan, buf := [] }

/-- R119: RESET as a step of the machine; from SCAN it changes nothing. That the operation waits in
`ops` and is taken off it is the model's choice (DESIGN CHOICE, log 1). -/
def Obligations.ResetDropsThePartialFrameSilently : Prop :=
  ∀ s : State,
    (∀ rest, step { s with ops := [opReset] :: rest } =
      .next { s with rxState := .scan, buf := [], ops := rest }) ∧
    (s.rxState = .scan → s.buf = [] → exec .reset s = .next s)

/-! ### The frame decoder's arms, each as its row and as FEED of its byte -/

/-- R67. -/
def Obligations.ScanDiscardsOtherBytes : Prop :=
  ∀ (s : State) (b : Byte), s.rxState = .scan → b ≠ dle →
    exec (.scanOther b) s = .next s ∧ exec (.feed b) s = .next s

/-- R68. -/
def Obligations.ScanRemembersTheDle : Prop :=
  ∀ s : State, s.rxState = .scan →
    exec .scanGotDle s = .next { s with rxState := .scanDle } ∧
    exec (.feed dle) s = .next { s with rxState := .scanDle }

/-- R69. -/
def Obligations.DleStxOpensAFrame : Prop :=
  ∀ s : State, s.rxState = .scanDle →
    exec .frameStart s = .next { s with rxState := .body, buf := [] } ∧
    exec (.feed stx) s = .next { s with rxState := .body, buf := [] }

/-- R70, with its corner case: `10 10 02` in Scanning opens a frame. -/
def Obligations.DleDleWhileScanningStays : Prop :=
  (∀ s : State, s.rxState = .scanDle →
    exec .scanDleDle s = .next s ∧ exec (.feed dle) s = .next s) ∧
  ∀ s : State, s.rxState = .scan →
    exec (.feedChunk [dle, dle, stx]) s = .next { s with rxState := .body, buf := [] }

/-- R71; ETX is among the bytes `b`. -/
def Obligations.ScanDleOtherByteReturnsToScan : Prop :=
  ∀ (s : State) (b : Byte), s.rxState = .scanDle → b ≠ stx → b ≠ dle →
    exec (.scanDleOther b) s = .next { s with rxState := .scan } ∧
    exec (.feed b) s = .next { s with rxState := .scan }

/-- R72, whatever the buffer holds. -/
def Obligations.BodyDleMarksAnEscape : Prop :=
  ∀ s : State, s.rxState = .body →
    exec .bodyDle s = .next { s with rxState := .bodyEsc } ∧
    exec (.feed dle) s = .next { s with rxState := .bodyEsc }

/-- R74 and R78: Append and Overflow. -/
def Obligations.AppendStoresOrOverflows : Prop :=
  ∀ (s : State) (x : Byte),
    (s.buf.length = s.cfg.maxFrame + 1 → append x s =
      { s with evt := s.evt ++ [.err (.frameTooLarge s.cfg.maxFrame)], buf := [],
               rxState := .scan }) ∧
    (s.buf.length ≠ s.cfg.maxFrame + 1 → append x s = { s with buf := s.buf ++ [x] })

/-- R73: a data byte is appended, or overflows a full buffer. -/
def Obligations.BodyDataByteIsAppended : Prop :=
  ∀ (s : State) (b : Byte), s.rxState = .body → b ≠ dle →
    (s.buf.length ≠ s.cfg.maxFrame + 1 →
      exec (.bodyData b) s = .next { s with buf := s.buf ++ [b] } ∧
      exec (.feed b) s = .next { s with buf := s.buf ++ [b] }) ∧
    (s.buf.length = s.cfg.maxFrame + 1 →
      exec (.bodyData b) s = .next
        { s with evt := s.evt ++ [.err (.frameTooLarge s.cfg.maxFrame)], buf := [],
                 rxState := .scan } ∧
      exec (.feed b) s = .next
        { s with evt := s.evt ++ [.err (.frameTooLarge s.cfg.maxFrame)], buf := [],
                 rxState := .scan })

/-- R75: a stuffed DLE is one data byte, or overflows a full buffer; four DLEs give two bytes, three
leave an escape pending. -/
def Obligations.StuffedDleIsOneByte : Prop :=
  (∀ s : State, s.rxState = .bodyEsc →
    (s.buf.length ≠ s.cfg.maxFrame + 1 →
      exec .escDle s = .next { s with rxState := .body, buf := s.buf ++ [dle] } ∧
      exec (.feed dle) s = .next { s with rxState := .body, buf := s.buf ++ [dle] }) ∧
    (s.buf.length = s.cfg.maxFrame + 1 →
      exec .escDle s = .next
        { s with evt := s.evt ++ [.err (.frameTooLarge s.cfg.maxFrame)], buf := [],
                 rxState := .scan } ∧
      exec (.feed dle) s = .next
        { s with evt := s.evt ++ [.err (.frameTooLarge s.cfg.maxFrame)], buf := [],
                 rxState := .scan })) ∧
  ∀ s : State, s.rxState = .body → s.buf.length + 2 ≤ s.cfg.maxFrame + 1 →
    exec (.feedChunk [dle, dle, dle, dle]) s = .next { s with buf := s.buf ++ [dle, dle] } ∧
    exec (.feedChunk [dle, dle, dle]) s =
      .next { s with rxState := .bodyEsc, buf := s.buf ++ [dle] }

/-- R76: the frame's end, its three outcomes; the raw frame's event is the message decoder's, read
by offset as its own rules write it. -/
def Obligations.FrameEndVerifiesTheChecksum : Prop :=
  ∀ s : State, s.rxState = .bodyEsc →
    exec (.feed etx) s = exec .frameEnd s ∧
    (s.buf = [] → exec .frameEnd s = .next
      { s with evt := s.evt ++ [.err (.checksumMismatch 0 none none)], buf := [],
               rxState := .scan }) ∧
    ∀ (body : List Byte) (c : Byte), s.buf = body ++ [c] →
      (sum8 s.buf = 0#8 → exec .frameEnd s = .next
        { s with evt := s.evt ++ [eventOfFrame body], buf := [], rxState := .scan }) ∧
      (sum8 s.buf ≠ 0#8 → exec .frameEnd s = .next
        { s with evt := s.evt ++ [.err (.checksumMismatch body.length (some c)
                   (some (0#8 - sum8 body)))], buf := [], rxState := .scan })

/-- R77. -/
def Obligations.StxInAFrameReportsAndReopens : Prop :=
  ∀ s : State, s.rxState = .bodyEsc →
    exec .bodyEscStx s = .next
      { s with evt := s.evt ++ [.err (.unescapedControlByte stx s.buf.length)], buf := [],
               rxState := .body } ∧
    exec (.feed stx) s = .next
      { s with evt := s.evt ++ [.err (.unescapedControlByte stx s.buf.length)], buf := [],
               rxState := .body }

/-- R79. -/
def Obligations.BadEscapeReportsAndResynchronises : Prop :=
  ∀ (s : State) (b : Byte), s.rxState = .bodyEsc → b ≠ stx → b ≠ etx → b ≠ dle →
    exec (.badEscape b) s = .next
      { s with evt := s.evt ++ [.err (.unescapedControlByte b s.buf.length)], buf := [],
               rxState := .scan } ∧
    exec (.feed b) s = .next
      { s with evt := s.evt ++ [.err (.unescapedControlByte b s.buf.length)], buf := [],
               rxState := .scan }

/-- The model's reading of the rules' guards (DESIGN CHOICE, log 9): a row given to `exec` in a
state its guard does not name does nothing. No step of the machine selects it there. -/
def Obligations.RowsOutsideTheirStateDoNothing : Prop :=
  ∀ (s : State) (b : Byte),
    (s.rxState ≠ .scan → exec (.scanOther b) s = .next s ∧ exec .scanGotDle s = .next s) ∧
    (s.rxState ≠ .scanDle → exec .frameStart s = .next s ∧ exec .scanDleDle s = .next s ∧
      exec (.scanDleOther b) s = .next s) ∧
    (s.rxState ≠ .body → exec .bodyDle s = .next s ∧ exec (.bodyData b) s = .next s) ∧
    (s.rxState ≠ .bodyEsc → exec .escDle s = .next s ∧ exec .frameEnd s = .next s ∧
      exec .bodyEscStx s = .next s ∧ exec (.badEscape b) s = .next s)

/-- R81: every (state, byte) pair falls in exactly one arm, the one the decoder gives. -/
def Obligations.ExactlyOneArmPerStateAndByte : Prop :=
  ∀ (st : RxState) (b : Byte) (i : Instr),
    (i.WellFormed ∧ pointOf i = .wire st ∧ encode i = [b]) ↔ i = decodeWire st b

/-- R117: FEED applies the one arm selected by (`rx_state`, `b`). -/
def Obligations.FeedAppliesTheSelectedArm : Prop :=
  ∀ (s : State) (b : Byte),
    decode (.wire s.rxState) [b] = .ok (decodeWire s.rxState b) ∧
    exec (.feed b) s = exec (decodeWire s.rxState b) s

/-! ### The message decoder's rows -/

/-- R89, R90: `BstDecode` appends the one event its dispatch gives and changes nothing else; the row
selected by the raw frame does the same. -/
def Obligations.BstDecodeEmitsOneEvent : Prop :=
  ∀ (f : List Byte) (s : State),
    bstDecode f s = { s with evt := s.evt ++ [eventOfFrame f] } ∧
    (f = [] → bstDecode f s =
      { s with evt := s.evt ++ [.err (.layoutLengthMismatch none .header 1 0)] }) ∧
    ∀ i, decodeFrame f = some i →
      exec i s = .next { s with evt := s.evt ++ [eventOfFrame f] }

/-- R91. -/
def Obligations.UnknownIdentifierIsReported : Prop :=
  ∀ (s : State) (id : Byte) (tail : List Byte),
    id ≠ 0x93#8 → id ≠ 0x94#8 → id ≠ 0x95#8 → id ≠ 0xD0#8 →
    decodeFrame (id :: tail) = some (.bstUnknown id tail) ∧
    exec (.bstUnknown id tail) s = .next
      { s with evt := s.evt ++ [.err (.unknownMessageType id (tail.length + 1))] }

/-- R92 to R95: BST 93, against the rules' own reading by offset. -/
def Obligations.Bst93FollowsItsLayout : Prop :=
  ∀ (s : State) (tail : List Byte),
    exec (.bst93 tail) s = .next
      { s with evt := s.evt ++ [ngtByOffset 0x93#8 .bst93 (0x93#8 :: tail)] }

/-- R96: BST 94, the same layout with its own tag. -/
def Obligations.Bst94FollowsItsLayout : Prop :=
  ∀ (s : State) (tail : List Byte),
    exec (.bst94 tail) s = .next
      { s with evt := s.evt ++ [ngtByOffset 0x94#8 .bst94 (0x94#8 :: tail)] }

/-- R97 to R100: BST 95. -/
def Obligations.Bst95FollowsItsLayout : Prop :=
  ∀ (s : State) (tail : List Byte),
    exec (.bst95 tail) s = .next
      { s with evt := s.evt ++ [canByOffset (0x95#8 :: tail)] }

/-- R101 to R104: BST D0. -/
def Obligations.BstD0FollowsItsLayout : Prop :=
  ∀ (s : State) (tail : List Byte),
    exec (.bstD0 tail) s = .next
      { s with evt := s.evt ++ [n2kByOffset (0xD0#8 :: tail)] }

/-! ### Derived values of a record -/

/-- R59: the PGN, whose placement the spec marks as general knowledge (PRESUMED, log 13). -/
def Obligations.PgnIsReconstructed : Prop :=
  ∀ (dp : BitVec 2) (pf ps : Byte),
    (pgn dp pf ps).toNat =
      dp.toNat * 65536 + pf.toNat * 256 + (if pf.toNat < 240 then 0 else ps.toNat) ∧
    (pf.toNat < 240 → ∀ ps', pgn dp pf ps' = pgn dp pf ps)

/-- R60. -/
def Obligations.DestinationIsTheLayouts : Prop :=
  (∀ r : Bst93Rec, dstOf (.bst93 r) = some r.dst ∧ dstOf (.bst94 r) = some r.dst) ∧
  (∀ r : BstD0Rec, dstOf (.bstD0 r) = some r.dst) ∧
  ∀ r : Bst95Rec,
    (r.pduf.toNat < 240 → dstOf (.bst95 r) = some r.pdus) ∧
    (240 ≤ r.pduf.toNat → dstOf (.bst95 r) = none)

/-- R54, in nanoseconds (DEDUCED, log 20). -/
def Obligations.TickAndRolloverOfTrc : Prop :=
  (tickNs 0#2 = 1000000 ∧ tickNs 1#2 = 100000 ∧ tickNs 2#2 = 10000 ∧ tickNs 3#2 = 1000) ∧
  (rolloverNs 0#2 = 65536000000 ∧ rolloverNs 1#2 = 6553600000 ∧ rolloverNs 2#2 = 655360000 ∧
    rolloverNs 3#2 = 65536000)

/-- R55, R57: the accessors of the raw D0 bytes by value (PRESUMED, log 18). -/
def Obligations.D0AccessorsTakeTheirBits : Prop :=
  ∀ b : Byte,
    (dpD0 b).toNat = b.toNat % 4 ∧ (prioD0 b).toNat = b.toNat / 4 % 8 ∧
    (seqD0 b).toNat = b.toNat / 32 ∧ (pgnCtlD0 b).toNat = b.toNat % 32

/-! ### The encoders -/

/-- R83, R84: ENCODE_FRAME, and its refusal of a payload that is too long. The returned value stands
in `results` by the model's choice (DESIGN CHOICE, log 3). -/
def Obligations.EncodeFrameAppendsTheFrame : Prop :=
  ∀ (s : State) (p : List Byte),
    (p.length ≤ s.cfg.maxFrame → exec (.encodeFrame p) s = .next
      { s with
        txout := s.txout ++ ([dle, stx] ++ stuff (p ++ [0#8 - sum8 p]) ++ [dle, etx]),
        results := s.results ++ [.ok ([dle, stx] ++ stuff (p ++ [0#8 - sum8 p]) ++ [dle, etx])] }) ∧
    (s.cfg.maxFrame < p.length → exec (.encodeFrame p) s = .next
      { s with results := s.results ++ [.refused (.frameTooLarge s.cfg.maxFrame)] })

/-- R44: the checksum is the one byte that makes the sum 0. -/
def Obligations.ChecksumIsTheOneByteThatVerifies : Prop :=
  ∀ (p : List Byte) (c : Byte),
    (sum8 (p ++ [c]) = 0#8 ↔ c = checksum p) ∧
    (sum8 p).toNat = (p.map BitVec.toNat).sum % 256

/-- R87: the length of an encoded frame. -/
def Obligations.EncodedFrameLength : Prop :=
  ∀ p : List Byte,
    (wireFrame p).length = p.length + 5 + (p ++ [checksum p]).count dle ∧
    (wireFrame p).length ≤ 2 * p.length + 6

/-- R42, R43: an encoded frame determines its payload. -/
def Obligations.EncodedFrameDeterminesThePayload : Prop :=
  ∀ p q : List Byte, wireFrame p = wireFrame q → p = q

/-- R109 to R111, R115: the layouts, with the bits of DPPC where R53 reads them, and their lengths. -/
def Obligations.LayoutsPlaceTheirFields : Prop :=
  (∀ r : Bst93Rec,
    bstLayout (.bst93 r) = [0x93#8, BitVec.ofNat 8 (6 + r.data.length), r.prio.setWidth 8, r.pdus,
      r.pduf, r.dp.setWidth 8, r.dst, BitVec.ofNat 8 r.data.length] ++ r.data ∧
    bstLayout (.bst94 r) = [0x94#8, BitVec.ofNat 8 (6 + r.data.length), r.prio.setWidth 8, r.pdus,
      r.pduf, r.dp.setWidth 8, r.dst, BitVec.ofNat 8 r.data.length] ++ r.data) ∧
  (∀ r : Bst95Rec, ∃ dppc : Byte,
    dppc.toNat = r.dp.toNat + 4 * r.prio.toNat + 32 * r.trc.toNat + 128 * r.dir.toNat ∧
    bstLayout (.bst95 r) = [0x95#8, BitVec.ofNat 8 (6 + r.data.length), r.ts.extractLsb' 0 8,
      r.ts.extractLsb' 8 8, r.src, r.pdus, r.pduf, dppc] ++ r.data) ∧
  (∀ r : BstD0Rec,
    bstLayout (.bstD0 r) = [0xD0#8, BitVec.ofNat 8 r.data.length,
      BitVec.ofNat 8 (r.data.length / 256), r.dst, r.src, r.pdus, r.pduf, r.dpp, r.ctrl,
      r.ts.extractLsb' 0 8, r.ts.extractLsb' 8 8, r.ts.extractLsb' 16 8, r.ts.extractLsb' 24 8] ++
      r.data) ∧
  ∀ r : BstRec, (bstLayout r).length = (if r.tag = 0xD0#8 then 13 else 8) + r.data.length

/-- R108, R112: ENCODE_BST is ENCODE_FRAME of the record's layout, never refused for its length; a
record with too much data is refused and nothing is written. The bound 249 is the spec's inference
from R50. The returned value stands in `results` by the model's choice (DESIGN CHOICE, log 3). -/
def Obligations.EncodeBstAppendsTheLayoutsFrame : Prop :=
  (∀ (a : Bst93Rec) (c : Bst95Rec) (d : BstD0Rec), maxData (.bst93 a) = 249 ∧
    maxData (.bst94 a) = 249 ∧ maxData (.bst95 c) = 8 ∧ maxData (.bstD0 d) = 1785) ∧
  ∀ (s : State) (r : BstRec),
    (r.data.length ≤ maxData r →
      exec (.encodeBst r) s = exec (.encodeFrame (bstLayout r)) s ∧
      exec (.encodeBst r) s = .next
        { s with txout := s.txout ++ wireFrame (bstLayout r),
                 results := s.results ++ [.ok (wireFrame (bstLayout r))] }) ∧
    (maxData r < r.data.length → exec (.encodeBst r) s = .next
      { s with results := s.results ++ [.refused
          (.layoutLengthMismatch (some r.tag) .data (maxData r) r.data.length)] })

/-! ### Host operations and the step -/

/-- R118: FEED_CHUNK is FEED of each byte in order; the empty chunk changes nothing. `ops` and
`results` are the model's own fields (DESIGN CHOICE, logs 1 and 3). -/
def Obligations.FeedChunkFeedsEachByte : Prop :=
  (∀ s : State, exec (.feedChunk []) s = .next s) ∧
  (∀ (s s' : State) (b : Byte) (bs : List Byte), exec (.feed b) s = .next s' →
    exec (.feedChunk (b :: bs)) s = exec (.feedChunk bs) s') ∧
  ∀ (s : State) (bs : List Byte), ∃ s', exec (.feedChunk bs) s = .next s' ∧
    s'.txout = s.txout ∧ s'.results = s.results ∧ s'.cfg = s.cfg ∧ s'.ops = s.ops

/-- A step runs the decoded host operation, which has been taken off those waiting; with none
waiting the block stays as it is (DESIGN CHOICE, logs 1 and 2). -/
def Obligations.StepRunsTheDecodedOperation : Prop :=
  (∀ (s : State) (op : List Byte) (rest : List (List Byte)) (i : Instr),
    s.ops = op :: rest → decode .hostOp op = .ok i → step s = exec i { s with ops := rest }) ∧
  ∀ s : State, s.ops = [] → step s = .next s

/-- R63: an encoded host operation is the one the step runs. That it waits in `ops`, and its operand
bytes, are the model's choice (DESIGN CHOICE, logs 1 and 5). -/
def Obligations.StepRunsTheEncodedOperation : Prop :=
  ∀ (s : State) (i : Instr) (rest : List (List Byte)), pointOf i = .hostOp →
    step { s with ops := encode i :: rest } = exec i { s with ops := rest }

/-- R124: unassigned codes, and ENCODE_BST with a tag outside the four, are refused. That the
operation waits in `ops`, and its form as bytes (code, tag, operands), are the model's choice
(DESIGN CHOICE, logs 1 and 5). The other ill-typed operands are those of log 6. -/
def Obligations.UnassignedOperationsAreRefused : Prop :=
  ∀ (s : State) (rest : List (List Byte)),
    (∀ (code : Byte) (operands : List Byte), 5 ≤ code.toNat →
      step { s with ops := (code :: operands) :: rest } = .refused (.unassignedOpcode code)) ∧
    ∀ (tag : Byte) (bs : List Byte),
      tag ≠ 0x93#8 → tag ≠ 0x94#8 → tag ≠ 0x95#8 → tag ≠ 0xD0#8 →
      step { s with ops := (opEncodeBst :: tag :: bs) :: rest } =
        .refused (.illTypedOperand opEncodeBst)

/-- R122, R124: every instruction completes in every state, and the only stop of a run is a host
operation that does not decode. The model's choices in it (DESIGN CHOICE): a step with no operation
waiting (log 2), the refusal of an operation of no bytes (log 6), and a row outside its own case
(log 9). -/
def Obligations.NothingStopsButABadOperation : Prop :=
  (∀ (i : Instr) (s : State), Completes (exec i s)) ∧
  ∀ s : State, StopsOnlyOnBadOp s (step s)

/-! ### Encodings -/

/-- Decode and encode agree, for every well-formed instruction with every operand. The operand bytes
of the host operations are the model's choice (DESIGN CHOICE, log 5). -/
def Obligations.DecodeOfEncodeIsTheInstruction : Prop :=
  ∀ i : Instr, i.WellFormed → decode (pointOf i) (encode i) = .ok i

/-- What decodes is well-formed, belongs to the decode point, and encodes back to the same bytes:
no bit of an accepted encoding is dropped. For the host operations this rests on their operand bytes,
the model's choice (DESIGN CHOICE, log 5), and on the refusal of surplus and over-wide operands
(DEDUCED from R24 and R124, log 6). -/
def Obligations.DecodedBytesReencode : Prop :=
  ∀ (p : DecodePoint) (bs : List Byte) (i : Instr), decode p bs = .ok i →
    i.WellFormed ∧ pointOf i = p ∧ encode i = bs

/-- Words of the table, one for each kind of decode point and state. The operand byte of FEED follows
its code by the model's choice (DESIGN CHOICE, log 5). -/
def Obligations.TableWordsDecode : Prop :=
  decode (.wire .scan) [0x10#8] = .ok .scanGotDle ∧
  decode (.wire .scanDle) [0x02#8] = .ok .frameStart ∧
  decode (.wire .body) [0x02#8] = .ok (.bodyData 0x02#8) ∧
  decode (.wire .bodyEsc) [0x03#8] = .ok .frameEnd ∧
  decode .frame [0x93#8, 0x00#8] = .ok (.bst93 [0x00#8]) ∧
  decode .frame [0x00#8] = .ok (.bstUnknown 0x00#8 []) ∧
  decode .hostOp [0x01#8, 0x10#8] = .ok (.feed 0x10#8) ∧
  decode .hostOp [0x05#8] = .error (.unassignedOpcode 0x05#8)

/-! ### Invariants -/

/-- Every step keeps the invariant of `Inv`: R17, R18 (the buffer is bounded and empty while
scanning), R22 and R24 to R27, R126, R127, R129 (every delivered event is one the block can raise),
R21 (`txout` holds the encoded bytes whole and in operation order). That clause, `TxOk`, says it
through `results`, the model's own field (DESIGN CHOICE, log 3). -/
def Obligations.EveryStepKeepsTheInvariant : Prop :=
  ∀ s s' : State, Inv s → step s = .next s' → Inv s'

/-- The power-on state has it: R138, and for the clause `TxOk` the empty `results`, a reset value the
model chose (DESIGN CHOICE, log 3). -/
def Obligations.PowerOnStateHasTheInvariant : Prop := Inv State.reset

/-- R20, R21, R23: `evt` and `txout` only grow, MAX_FRAME never changes. The model's own streams: the
returned values only grow and one host operation is taken (DESIGN CHOICE, logs 1 and 3). -/
def Obligations.StreamsOnlyGrow : Prop :=
  ∀ s s' : State, step s = .next s' →
    (∃ es, s'.evt = s.evt ++ es) ∧ (∃ ws, s'.txout = s.txout ++ ws) ∧
    (∃ rs, s'.results = s.results ++ rs) ∧ s'.cfg = s.cfg ∧ s'.ops = s.ops.tail

/-! ### Whole-machine laws -/

/-- R80, R131: no input byte gives more than one event. -/
def Obligations.AtMostOneEventPerByte : Prop :=
  (∀ (s s' : State) (b : Byte), exec (.feed b) s = .next s' →
    s'.evt = s.evt ∨ ∃ e, s'.evt = s.evt ++ [e]) ∧
  ∀ (s s' : State) (bs : List Byte), exec (.feedChunk bs) s = .next s' →
    ∃ es, s'.evt = s.evt ++ es ∧ es.length ≤ bs.length

/-- R132: what an error changes. A frame-layer error discards the frame and goes to SCAN, or after
`10 02` inside a frame to BODY; a message-layer error is raised only at a frame's end and leaves the
decoder in SCAN. -/
def Obligations.ErrorsLeaveNoFrame : Prop :=
  ∀ (s s' : State) (b : Byte) (e : CodecError),
    exec (.feed b) s = .next s' → s'.evt = s.evt ++ [.err e] →
    (e.kind.layer = .frame → s'.buf = [] ∧
      ((∃ n, e = .unescapedControlByte stx n) → s'.rxState = .body) ∧
      ((¬ ∃ n, e = .unescapedControlByte stx n) → s'.rxState = .scan)) ∧
    (e.kind.layer = .message → s.rxState = .bodyEsc ∧ b = etx ∧ s'.buf = [] ∧
      s'.rxState = .scan)

/-- R126, R129: the codes of the taxonomy, and no step raises the transport's kind. -/
def Obligations.TransportErrorIsNeverRaised : Prop :=
  (ErrKind.code .checksumMismatch = 1 ∧ ErrKind.code .unescapedControlByte = 2 ∧
    ErrKind.code .frameTooLarge = 3 ∧ ErrKind.code .unknownMessageType = 4 ∧
    ErrKind.code .layoutLengthMismatch = 5 ∧ ErrKind.code .transportNotConnected = 6) ∧
  ∀ s s' : State, step s = .next s' → .err .transportNotConnected ∈ s'.evt →
    .err .transportNotConnected ∈ s.evt

/-- R37: the encode operations touch no RX state and do not depend on it; the receive operations
write no TX state and do not depend on it. `results` is the model's own field (DESIGN CHOICE,
log 3). -/
def Obligations.ReceiveAndTransmitAreIndependent : Prop :=
  (∀ (i : Instr) (s t s' t' : State),
    ((∃ p, i = .encodeFrame p) ∨ ∃ r, i = .encodeBst r) →
    s.cfg = t.cfg → s.txout = t.txout → s.results = t.results →
    exec i s = .next s' → exec i t = .next t' →
    s'.txout = t'.txout ∧ s'.results = t'.results ∧
    s'.rxState = s.rxState ∧ s'.buf = s.buf ∧ s'.evt = s.evt) ∧
  ∀ (i : Instr) (s t s' t' : State),
    (i = .reset ∨ (∃ b, i = .feed b) ∨ ∃ bs, i = .feedChunk bs) →
    s.cfg = t.cfg → s.rxState = t.rxState → s.buf = t.buf → s.evt = t.evt →
    exec i s = .next s' → exec i t = .next t' →
    s'.rxState = t'.rxState ∧ s'.buf = t'.buf ∧ s'.evt = t'.evt ∧
    s'.txout = s.txout ∧ s'.results = s.results

/-- R82: a stream fed in chunks, whole, or byte by byte gives the same run of the machine. That the
operations stand in `ops`, and their operand bytes, are the model's choice (DESIGN CHOICE, logs 1
and 5). -/
def Obligations.ChunkBoundariesCarryNoMeaning : Prop :=
  ∀ (s : State) (chunks : List (List Byte)),
    Host.Core.run Sys2Proof.core chunks.length
        { s with ops := chunks.map fun c => opFeedChunk :: c } =
      Host.Core.run Sys2Proof.core 1 { s with ops := [opFeedChunk :: chunks.flatten] } ∧
    Host.Core.run Sys2Proof.core chunks.flatten.length
        { s with ops := chunks.flatten.map fun b => [opFeed, b] } =
      Host.Core.run Sys2Proof.core 1 { s with ops := [opFeedChunk :: chunks.flatten] }

/-- R88: an encoded frame fed while scanning delivers exactly its payload to the message decoder. -/
def Obligations.FrameRoundTripFromScanning : Prop :=
  ∀ (s : State) (p : List Byte), s.rxState = .scan ∨ s.rxState = .scanDle →
    p.length ≤ s.cfg.maxFrame →
    exec (.feedChunk (wireFrame p)) s = .next
      { s with rxState := .scan, buf := [], evt := s.evt ++ [eventOfFrame p] }

/-- R88 (a): fed inside a frame, it raises one error for that frame and is then delivered. -/
def Obligations.FrameAfterATruncatedFrame : Prop :=
  ∀ (s : State) (p : List Byte), s.rxState = .body → p.length ≤ s.cfg.maxFrame →
    exec (.feedChunk (wireFrame p)) s = .next
      { s with rxState := .scan, buf := [],
               evt := s.evt ++ [.err (.unescapedControlByte stx s.buf.length), eventOfFrame p] }

/-- R88 (b): fed after a lone DLE inside a frame, it is absorbed into that frame, and the one event
is that of the merged buffer; stated where the merged buffer fits. -/
def Obligations.FrameAfterALoneDleIsAbsorbed : Prop :=
  ∀ (s : State) (p : List Byte), s.rxState = .bodyEsc →
    s.buf.length + 2 + p.length ≤ s.cfg.maxFrame →
    (sum8 (s.buf ++ [dle, stx] ++ p ++ [checksum p]) = 0#8 →
      exec (.feedChunk (wireFrame p)) s = .next
        { s with rxState := .scan, buf := [],
                 evt := s.evt ++ [eventOfFrame (s.buf ++ [dle, stx] ++ p)] }) ∧
    (sum8 (s.buf ++ [dle, stx] ++ p ++ [checksum p]) ≠ 0#8 →
      exec (.feedChunk (wireFrame p)) s = .next
        { s with rxState := .scan, buf := [],
                 evt := s.evt ++ [.err (.checksumMismatch (s.buf.length + 2 + p.length)
                   (some (checksum p)) (some (checksum (s.buf ++ [dle, stx] ++ p))))] })

/-- R125: whatever state the decoder is in and whatever one frame does there, the next frame is
delivered. -/
def Obligations.DecoderResynchronises : Prop :=
  ∀ (s : State) (q p : List Byte), p.length ≤ s.cfg.maxFrame →
    ∃ es, exec (.feedChunk (wireFrame q ++ wireFrame p)) s = .next
      { s with rxState := .scan, buf := [], evt := s.evt ++ es ++ [eventOfFrame p] }

/-- R113: decode after encode, for the message layer and through the frame layer. The returned value
stands in `results` by the model's choice (DESIGN CHOICE, log 3). -/
def Obligations.MessageRoundTrip : Prop :=
  ∀ r : BstRec, bstValid r = true →
    eventOfFrame (bstLayout r) = .msg .bst r.tag r ∧
    ∀ s : State, s.rxState = .scan → ∃ w,
      exec (.encodeBst r) s =
        .next { s with txout := s.txout ++ w, results := s.results ++ [.ok w] } ∧
      exec (.feedChunk w) s = .next
        { s with rxState := .scan, buf := [], evt := s.evt ++ [.msg .bst r.tag r] }

/-- R114: encode after decode; only the reserved bits of BST 93 and 94 are lost. -/
def Obligations.EncodeAfterDecode : Prop :=
  ∀ (f : List Byte) (protocol : Protocol) (tag : Byte) (r : BstRec),
    eventOfFrame f = .msg protocol tag r →
    protocol = .bst ∧ tag = r.tag ∧ bstValid r = true ∧ bstLayout r = clearReserved f

/-- spec/90_conflicts.md C9: a frame whose checksum byte was replaced by a wrong byte other than 0x10
gives exactly one `ChecksumMismatch` and no message. -/
def Obligations.CorruptedChecksumIsReported : Prop :=
  ∀ (s : State) (p : List Byte) (c : Byte), s.rxState = .scan → p.length ≤ s.cfg.maxFrame →
    c ≠ dle → c ≠ checksum p →
    exec (.feedChunk ([dle, stx] ++ stuff p ++ [c, dle, etx])) s = .next
      { s with rxState := .scan, buf := [],
               evt := s.evt ++ [.err (.checksumMismatch p.length (some c)
                 (some (checksum p)))] }

/-- R140, R67 to R71: while scanning, bytes without the pair `10 02` give no event and change
nothing but the remembered DLE. -/
def Obligations.NothingHappensWithoutAFrameStart : Prop :=
  ∀ (s : State) (bs : List Byte), s.rxState = .scan →
    (∀ xs ys, bs ≠ xs ++ [dle, stx] ++ ys) →
    ∃ st, (st = .scan ∨ st = .scanDle) ∧
      exec (.feedChunk bs) s = .next { s with rxState := st }

/-- R78 over a whole frame: data bytes up to the bound are held without an event, and the first one
beyond it gives the one error. -/
def Obligations.OverlongFrameIsReportedOnce : Prop :=
  ∀ (s : State) (ds : List Byte), s.rxState = .scan → (∀ d ∈ ds, d ≠ dle) →
    (ds.length ≤ s.cfg.maxFrame + 1 →
      exec (.feedChunk ([dle, stx] ++ ds)) s = .next { s with rxState := .body, buf := ds }) ∧
    (ds.length = s.cfg.maxFrame + 2 →
      exec (.feedChunk ([dle, stx] ++ ds)) s = .next
        { s with rxState := .scan, buf := [],
                 evt := s.evt ++ [.err (.frameTooLarge s.cfg.maxFrame)] })

/-- R145: the false-frame hazard, on the bytes of program P5 of spec/95_test_vectors.md. -/
def Obligations.FalseFrameHazardGivesTwoErrors : Prop :=
  exec (.feedChunk [0x10#8, 0x02#8, 0x95#8, 0x10#8, 0x41#8, 0xAA#8, 0x10#8, 0x10#8, 0x02#8, 0x05#8,
      0x06#8, 0x10#8, 0x03#8]) State.reset = .next
    { State.reset with
      evt := [.err (.unescapedControlByte 0x41#8 1),
              .err (.checksumMismatch 1 (some 0x06#8) (some 0xFB#8))] }

/-- R13, R27: what an operation or a row does to the block, and what it returns, is fixed by the
block's four elements, by MAX_FRAME and by the operands: nothing else is kept between operations.
The host's side, which only gains the returned values, is the model's own (DESIGN CHOICE, logs 1
and 3). -/
def Obligations.BlockKeepsNothingElse : Prop :=
  ∀ (i : Instr) (s t : State), s.toBlock = t.toBlock → s.cfg = t.cfg →
    ∃ (b : Block) (rs : List OpResult),
      exec i s = .next { s with toBlock := b, results := s.results ++ rs } ∧
      exec i t = .next { t with toBlock := b, results := t.results ++ rs }
end

