-- ==== Sys2Proof/Laws/State.lean ====
section
/-! SUPPORT. One lemma per field per update of the state, true by rfl. -/

namespace Sys2Proof.Machine

/-! `emit` -/
@[simp] theorem emit_rxState (e : Event) (s : State) : (emit e s).rxState = s.rxState := rfl
@[simp] theorem emit_buf (e : Event) (s : State) : (emit e s).buf = s.buf := rfl
@[simp] theorem emit_evt (e : Event) (s : State) : (emit e s).evt = s.evt ++ [e] := rfl
@[simp] theorem emit_txout (e : Event) (s : State) : (emit e s).txout = s.txout := rfl
@[simp] theorem emit_cfg (e : Event) (s : State) : (emit e s).cfg = s.cfg := rfl
@[simp] theorem emit_ops (e : Event) (s : State) : (emit e s).ops = s.ops := rfl
@[simp] theorem emit_results (e : Event) (s : State) : (emit e s).results = s.results := rfl
@[simp] theorem emit_toHostSide (e : Event) (s : State) : (emit e s).toHostSide = s.toHostSide := rfl

/-! `raise` -/
@[simp] theorem raise_rxState (e : CodecError) (n : RxState) (s : State) : (raise e n s).rxState = n := rfl
@[simp] theorem raise_buf (e : CodecError) (n : RxState) (s : State) : (raise e n s).buf = [] := rfl
@[simp] theorem raise_evt (e : CodecError) (n : RxState) (s : State) : (raise e n s).evt = s.evt ++ [.err e] := rfl
@[simp] theorem raise_txout (e : CodecError) (n : RxState) (s : State) : (raise e n s).txout = s.txout := rfl
@[simp] theorem raise_cfg (e : CodecError) (n : RxState) (s : State) : (raise e n s).cfg = s.cfg := rfl
@[simp] theorem raise_ops (e : CodecError) (n : RxState) (s : State) : (raise e n s).ops = s.ops := rfl
@[simp] theorem raise_results (e : CodecError) (n : RxState) (s : State) : (raise e n s).results = s.results := rfl
@[simp] theorem raise_toHostSide (e : CodecError) (n : RxState) (s : State) : (raise e n s).toHostSide = s.toHostSide := rfl

/-! `answer` -/
@[simp] theorem answer_rxState (r : OpResult) (s : State) : (answer r s).rxState = s.rxState := rfl
@[simp] theorem answer_buf (r : OpResult) (s : State) : (answer r s).buf = s.buf := rfl
@[simp] theorem answer_evt (r : OpResult) (s : State) : (answer r s).evt = s.evt := rfl
@[simp] theorem answer_txout (r : OpResult) (s : State) : (answer r s).txout = s.txout := rfl
@[simp] theorem answer_cfg (r : OpResult) (s : State) : (answer r s).cfg = s.cfg := rfl
@[simp] theorem answer_ops (r : OpResult) (s : State) : (answer r s).ops = s.ops := rfl
@[simp] theorem answer_results (r : OpResult) (s : State) : (answer r s).results = s.results ++ [r] := rfl
@[simp] theorem answer_toBlock (r : OpResult) (s : State) : (answer r s).toBlock = s.toBlock := rfl

/-! `openFrame` -/
@[simp] theorem openFrame_rxState (s : State) : (openFrame s).rxState = .body := rfl
@[simp] theorem openFrame_buf (s : State) : (openFrame s).buf = [] := rfl
@[simp] theorem openFrame_evt (s : State) : (openFrame s).evt = s.evt := rfl
@[simp] theorem openFrame_txout (s : State) : (openFrame s).txout = s.txout := rfl
@[simp] theorem openFrame_cfg (s : State) : (openFrame s).cfg = s.cfg := rfl
@[simp] theorem openFrame_ops (s : State) : (openFrame s).ops = s.ops := rfl
@[simp] theorem openFrame_results (s : State) : (openFrame s).results = s.results := rfl
@[simp] theorem openFrame_toHostSide (s : State) : (openFrame s).toHostSide = s.toHostSide := rfl

/-! `toScan` -/
@[simp] theorem toScan_rxState (s : State) : (toScan s).rxState = .scan := rfl
@[simp] theorem toScan_buf (s : State) : (toScan s).buf = [] := rfl
@[simp] theorem toScan_evt (s : State) : (toScan s).evt = s.evt := rfl
@[simp] theorem toScan_txout (s : State) : (toScan s).txout = s.txout := rfl
@[simp] theorem toScan_cfg (s : State) : (toScan s).cfg = s.cfg := rfl
@[simp] theorem toScan_ops (s : State) : (toScan s).ops = s.ops := rfl
@[simp] theorem toScan_results (s : State) : (toScan s).results = s.results := rfl
@[simp] theorem toScan_toHostSide (s : State) : (toScan s).toHostSide = s.toHostSide := rfl

/-! `overflow` -/
@[simp] theorem overflow_rxState (s : State) : (overflow s).rxState = .scan := rfl
@[simp] theorem overflow_buf (s : State) : (overflow s).buf = [] := rfl
@[simp] theorem overflow_evt (s : State) : (overflow s).evt = s.evt ++ [.err (.frameTooLarge s.cfg.maxFrame)] := rfl
@[simp] theorem overflow_txout (s : State) : (overflow s).txout = s.txout := rfl
@[simp] theorem overflow_cfg (s : State) : (overflow s).cfg = s.cfg := rfl
@[simp] theorem overflow_ops (s : State) : (overflow s).ops = s.ops := rfl
@[simp] theorem overflow_results (s : State) : (overflow s).results = s.results := rfl
@[simp] theorem overflow_toHostSide (s : State) : (overflow s).toHostSide = s.toHostSide := rfl

/-! `State.reset` -/
@[simp] theorem reset_rxState : State.reset.rxState = .scan := rfl
@[simp] theorem reset_buf : State.reset.buf = [] := rfl
@[simp] theorem reset_evt : State.reset.evt = [] := rfl
@[simp] theorem reset_txout : State.reset.txout = [] := rfl
@[simp] theorem reset_cfg : State.reset.cfg = Config.default := rfl
@[simp] theorem reset_ops : State.reset.ops = [] := rfl
@[simp] theorem reset_results : State.reset.results = [] := rfl

end Sys2Proof.Machine
end

