-- ==== Sys2Proof/Laws/Ops.lean ====
section
/-! SUPPORT. For each shared operation, what it can do, said once. -/

namespace Sys2Proof.Machine

/-! ### The control bytes differ (R41) -/

@[simp] theorem dle_ne_stx : (dle = stx) = False := by decide
@[simp] theorem dle_ne_etx : (dle = etx) = False := by decide
@[simp] theorem stx_ne_dle : (stx = dle) = False := by decide
@[simp] theorem stx_ne_etx : (stx = etx) = False := by decide
@[simp] theorem etx_ne_dle : (etx = dle) = False := by decide
@[simp] theorem etx_ne_stx : (etx = stx) = False := by decide

/-! ### The identifiers and the operation codes differ (R47, R63) -/

@[simp] theorem idBst93_ne_idBst94 : (idBst93 = idBst94) = False := by decide
@[simp] theorem idBst93_ne_idBst95 : (idBst93 = idBst95) = False := by decide
@[simp] theorem idBst93_ne_idBstD0 : (idBst93 = idBstD0) = False := by decide
@[simp] theorem idBst94_ne_idBst93 : (idBst94 = idBst93) = False := by decide
@[simp] theorem idBst94_ne_idBst95 : (idBst94 = idBst95) = False := by decide
@[simp] theorem idBst94_ne_idBstD0 : (idBst94 = idBstD0) = False := by decide
@[simp] theorem idBst95_ne_idBst93 : (idBst95 = idBst93) = False := by decide
@[simp] theorem idBst95_ne_idBst94 : (idBst95 = idBst94) = False := by decide
@[simp] theorem idBst95_ne_idBstD0 : (idBst95 = idBstD0) = False := by decide
@[simp] theorem idBstD0_ne_idBst93 : (idBstD0 = idBst93) = False := by decide
@[simp] theorem idBstD0_ne_idBst94 : (idBstD0 = idBst94) = False := by decide
@[simp] theorem idBstD0_ne_idBst95 : (idBstD0 = idBst95) = False := by decide
@[simp] theorem opReset_ne_opFeed : (opReset = opFeed) = False := by decide
@[simp] theorem opReset_ne_opFeedChunk : (opReset = opFeedChunk) = False := by decide
@[simp] theorem opReset_ne_opEncodeFrame : (opReset = opEncodeFrame) = False := by decide
@[simp] theorem opReset_ne_opEncodeBst : (opReset = opEncodeBst) = False := by decide
@[simp] theorem opFeed_ne_opReset : (opFeed = opReset) = False := by decide
@[simp] theorem opFeed_ne_opFeedChunk : (opFeed = opFeedChunk) = False := by decide
@[simp] theorem opFeed_ne_opEncodeFrame : (opFeed = opEncodeFrame) = False := by decide
@[simp] theorem opFeed_ne_opEncodeBst : (opFeed = opEncodeBst) = False := by decide
@[simp] theorem opFeedChunk_ne_opReset : (opFeedChunk = opReset) = False := by decide
@[simp] theorem opFeedChunk_ne_opFeed : (opFeedChunk = opFeed) = False := by decide
@[simp] theorem opFeedChunk_ne_opEncodeFrame : (opFeedChunk = opEncodeFrame) = False := by decide
@[simp] theorem opFeedChunk_ne_opEncodeBst : (opFeedChunk = opEncodeBst) = False := by decide
@[simp] theorem opEncodeFrame_ne_opReset : (opEncodeFrame = opReset) = False := by decide
@[simp] theorem opEncodeFrame_ne_opFeed : (opEncodeFrame = opFeed) = False := by decide
@[simp] theorem opEncodeFrame_ne_opFeedChunk : (opEncodeFrame = opFeedChunk) = False := by decide
@[simp] theorem opEncodeFrame_ne_opEncodeBst : (opEncodeFrame = opEncodeBst) = False := by decide
@[simp] theorem opEncodeBst_ne_opReset : (opEncodeBst = opReset) = False := by decide
@[simp] theorem opEncodeBst_ne_opFeed : (opEncodeBst = opFeed) = False := by decide
@[simp] theorem opEncodeBst_ne_opFeedChunk : (opEncodeBst = opFeedChunk) = False := by decide
@[simp] theorem opEncodeBst_ne_opEncodeFrame : (opEncodeBst = opEncodeFrame) = False := by decide

/-! ### The accumulation buffer -/

/-- R74, R78: Append either stores the byte or overflows. -/
theorem append_cases (x : Byte) (s : State) :
    (s.buf.length = s.cfg.maxFrame + 1 ∧
      append x s = raise (.frameTooLarge s.cfg.maxFrame) .scan s) ∨
    (s.buf.length ≠ s.cfg.maxFrame + 1 ∧ append x s = { s with buf := s.buf ++ [x] }) := by
  by_cases h : s.buf.length = s.cfg.maxFrame + 1
  · exact .inl ⟨h, by simp [append, h, overflow]⟩
  · exact .inr ⟨h, by simp [append, h]⟩

/-- R74: Append in a frame with room. -/
theorem append_room {x : Byte} {s : State} (h : s.buf.length < s.cfg.maxFrame + 1) :
    append x s = { s with buf := s.buf ++ [x] } := by
  simp [append, Nat.ne_of_lt h]

/-- R74, R78: Append in a full frame. -/
theorem append_full {x : Byte} {s : State} (h : s.buf.length = s.cfg.maxFrame + 1) :
    append x s = raise (.frameTooLarge s.cfg.maxFrame) .scan s := by
  simp [append, h, overflow]

@[simp] theorem append_cfg (x : Byte) (s : State) : (append x s).cfg = s.cfg := by
  rcases append_cases x s with ⟨-, h⟩ | ⟨-, h⟩ <;> simp [h]
@[simp] theorem append_txout (x : Byte) (s : State) : (append x s).txout = s.txout := by
  rcases append_cases x s with ⟨-, h⟩ | ⟨-, h⟩ <;> simp [h]
@[simp] theorem append_ops (x : Byte) (s : State) : (append x s).ops = s.ops := by
  rcases append_cases x s with ⟨-, h⟩ | ⟨-, h⟩ <;> simp [h]
@[simp] theorem append_results (x : Byte) (s : State) : (append x s).results = s.results := by
  rcases append_cases x s with ⟨-, h⟩ | ⟨-, h⟩ <;> simp [h]
@[simp] theorem append_toHostSide (x : Byte) (s : State) :
    (append x s).toHostSide = s.toHostSide := by
  rcases append_cases x s with ⟨-, h⟩ | ⟨-, h⟩ <;> simp [h]

/-! ### The message decoder -/

/-- R89, R105: `BstDecode` appends one event and changes nothing else. -/
theorem bstDecode_emits (frame : List Byte) : ∃ e, ∀ s, bstDecode frame s = emit e s := by
  cases frame with
  | nil => exact ⟨_, fun _ => rfl⟩
  | cons id tail =>
    by_cases h3 : id = idBst93
    · exact ⟨_, fun s => by simp only [bstDecode, decodeFrame, if_pos h3, runFrameRow]; rfl⟩
    by_cases h4 : id = idBst94
    · exact ⟨_, fun s => by
        simp only [bstDecode, decodeFrame, if_neg h3, if_pos h4, runFrameRow]; rfl⟩
    by_cases h5 : id = idBst95
    · exact ⟨_, fun s => by
        simp only [bstDecode, decodeFrame, if_neg h3, if_neg h4, if_pos h5, runFrameRow]; rfl⟩
    by_cases hd : id = idBstD0
    · exact ⟨_, fun s => by
        simp only [bstDecode, decodeFrame, if_neg h3, if_neg h4, if_neg h5, if_pos hd,
          runFrameRow]; rfl⟩
    · exact ⟨_, fun s => by
        simp only [bstDecode, decodeFrame, if_neg h3, if_neg h4, if_neg h5, if_neg hd,
          runFrameRow]; rfl⟩

/-! ### The frame decoder: what FEED does in each state (R81) -/

theorem feed_scan {b : Byte} {s : State} (h : s.rxState = .scan) :
    feed b s = if b = dle then { s with rxState := .scanDle } else s := by
  by_cases hb : b = dle <;> simp [feed, decodeWire, h, hb, runWireRow, scanGotDle, scanOther]

theorem feed_scanDle {b : Byte} {s : State} (h : s.rxState = .scanDle) :
    feed b s = if b = stx then openFrame s else if b = dle then s
      else { s with rxState := .scan } := by
  by_cases hb : b = stx
  · simp [feed, decodeWire, h, hb, runWireRow, frameStart]
  · by_cases hd : b = dle <;>
      simp [feed, decodeWire, h, hb, hd, runWireRow, scanDleDle, scanDleOther]

theorem feed_body {b : Byte} {s : State} (h : s.rxState = .body) :
    feed b s = if b = dle then { s with rxState := .bodyEsc } else append b s := by
  by_cases hb : b = dle <;> simp [feed, decodeWire, h, hb, runWireRow, bodyDle, bodyData]

theorem feed_bodyEsc {b : Byte} {s : State} (h : s.rxState = .bodyEsc) :
    feed b s = if b = dle then append dle { s with rxState := .body }
      else if b = etx then frameEnd s
      else if b = stx then raise (.unescapedControlByte stx s.buf.length) .body s
      else raise (.unescapedControlByte b s.buf.length) .scan s := by
  by_cases hb : b = dle
  · simp [feed, decodeWire, h, hb, runWireRow, escDle]
  · by_cases he : b = etx
    · simp [feed, decodeWire, h, he, runWireRow]
    · by_cases hs : b = stx
      · simp [feed, decodeWire, h, hs, runWireRow, bodyEscStx]
      · simp [feed, decodeWire, h, hb, he, hs, runWireRow, badEscape]

/-- R76: the three outcomes of a frame's end. -/
theorem frameEnd_cases {s : State} (h : s.rxState = .bodyEsc) :
    (s.buf = [] ∧ frameEnd s = raise (.checksumMismatch 0 none none) .scan s) ∨
    (s.buf ≠ [] ∧ sum8 s.buf = 0#8 ∧ frameEnd s = toScan (bstDecode s.buf.dropLast s)) ∨
    (s.buf ≠ [] ∧ sum8 s.buf ≠ 0#8 ∧
      frameEnd s = raise (.checksumMismatch (s.buf.length - 1) s.buf.getLast?
        (some (checksum s.buf.dropLast))) .scan s) := by
  by_cases hn : s.buf = []
  · exact .inl ⟨hn, by simp [frameEnd, h, hn]⟩
  · by_cases hv : sum8 s.buf = 0#8
    · exact .inr (.inl ⟨hn, hv, by simp [frameEnd, h, hn, verifies, hv]⟩)
    · exact .inr (.inr ⟨hn, hv, by simp [frameEnd, h, hn, verifies, hv]⟩)

/-- R37: a byte fed changes only the receive path's own fields. -/
theorem feed_frame (b : Byte) (s : State) :
    (feed b s).cfg = s.cfg ∧ (feed b s).txout = s.txout ∧ (feed b s).ops = s.ops ∧
      (feed b s).results = s.results := by
  cases h : s.rxState with
  | scan => rw [feed_scan h]; split <;> simp
  | scanDle =>
    rw [feed_scanDle h]
    split
    · simp
    · split <;> simp
  | body => rw [feed_body h]; split <;> simp
  | bodyEsc =>
    rw [feed_bodyEsc h]
    split
    · simp
    · split
      · obtain ⟨e, he⟩ := bstDecode_emits s.buf.dropLast
        rcases frameEnd_cases h with ⟨-, hf⟩ | ⟨-, -, hf⟩ | ⟨-, -, hf⟩ <;> simp [hf, he]
      · split <;> simp

@[simp] theorem feed_cfg (b : Byte) (s : State) : (feed b s).cfg = s.cfg := (feed_frame b s).1
@[simp] theorem feed_txout (b : Byte) (s : State) : (feed b s).txout = s.txout :=
  (feed_frame b s).2.1
@[simp] theorem feed_ops (b : Byte) (s : State) : (feed b s).ops = s.ops := (feed_frame b s).2.2.1
@[simp] theorem feed_results (b : Byte) (s : State) : (feed b s).results = s.results :=
  (feed_frame b s).2.2.2
@[simp] theorem feed_toHostSide (b : Byte) (s : State) : (feed b s).toHostSide = s.toHostSide := by
  show HostSide.mk (feed b s).ops (feed b s).results = _
  rw [feed_ops, feed_results]

@[simp] theorem feedChunk_nil (s : State) : feedChunk [] s = s := rfl
@[simp] theorem feedChunk_cons (b : Byte) (rest : List Byte) (s : State) :
    feedChunk (b :: rest) s = feedChunk rest (feed b s) := rfl

/-! ### The transmit path -/

/-- R112: the validity check. -/
@[simp] theorem bstValid_iff (r : BstRec) : bstValid r = true ↔ r.data.length ≤ maxData r := by
  simp only [bstValid, decide_eq_true_eq]

/-- R112: the validity check, failing. -/
@[simp] theorem bstValid_false_iff (r : BstRec) :
    bstValid r = false ↔ maxData r < r.data.length := by
  simp only [bstValid, decide_eq_false_iff_not, Nat.not_le]

/-- R83, R84: what ENCODE_FRAME does. -/
theorem transmit_cases (p : List Byte) (s : State) :
    (s.cfg.maxFrame < p.length ∧
      transmit p s = answer (.refused (.frameTooLarge s.cfg.maxFrame)) s) ∨
    (p.length ≤ s.cfg.maxFrame ∧
      transmit p s = answer (.ok (wireFrame p)) { s with txout := s.txout ++ wireFrame p }) := by
  by_cases h : p.length > s.cfg.maxFrame
  · exact .inl ⟨h, by simp [transmit, h]⟩
  · exact .inr ⟨Nat.le_of_not_lt h, by simp [transmit, h]⟩

/-- R108, R112: what ENCODE_BST does. -/
theorem transmitRecord_cases (r : BstRec) (s : State) :
    (bstValid r = false ∧ transmitRecord r s = answer (.refused (recordRefusal r)) s) ∨
    (bstValid r = true ∧ transmitRecord r s = transmit (bstLayout r) s) := by
  cases h : bstValid r
  · exact .inl ⟨rfl, by simp [transmitRecord, h]⟩
  · exact .inr ⟨rfl, by simp [transmitRecord, h]⟩

/-! ### Byte sums and stuffing -/

@[simp] theorem sum8_nil : sum8 [] = 0#8 := rfl
@[simp] theorem sum8_cons (b : Byte) (l : List Byte) : sum8 (b :: l) = b + sum8 l := rfl

theorem sum8_append (l m : List Byte) : sum8 (l ++ m) = sum8 l + sum8 m := by
  induction l with
  | nil => simp
  | cons b l ih => simp [ih, BitVec.add_assoc]

@[simp] theorem stuff_nil : stuff [] = [] := rfl

theorem stuff_cons (b : Byte) (l : List Byte) :
    stuff (b :: l) = if b = dle then dle :: dle :: stuff l else b :: stuff l := rfl

theorem stuff_append (l m : List Byte) : stuff (l ++ m) = stuff l ++ stuff m := by
  induction l with
  | nil => rfl
  | cons b l ih => by_cases h : b = dle <;> simp [stuff_cons, h, ih]

/-! ### Fetching -/

/-- R34: what `step` does. -/
theorem step_cases (s : State) :
    (s.ops = [] ∧ step s = .next s) ∨
    (∃ op rest i, s.ops = op :: rest ∧ decode .hostOp op = .ok i ∧
      step s = exec i { s with ops := rest }) ∨
    (∃ op rest why, s.ops = op :: rest ∧ decode .hostOp op = .error why ∧
      step s = .refused (refusalOf why)) := by
  cases ho : s.ops with
  | nil => exact .inl ⟨rfl, by simp [step, fetchOp, ho]⟩
  | cons op rest =>
    cases hd : decode .hostOp op with
    | ok i => exact .inr (.inl ⟨op, rest, i, rfl, hd, by simp [step, fetchOp, ho, hd]⟩)
    | error why => exact .inr (.inr ⟨op, rest, why, rfl, hd, by simp [step, fetchOp, ho, hd]⟩)

end Sys2Proof.Machine
end

