-- ==== Sys2Proof/Laws/Bits.lean ====
section
/-! SUPPORT. The byte-order and bit-field helpers, once: splitting and joining are inverse. -/

namespace Sys2Proof.Machine

theorem le16_toNat (a b : Byte) : (le16 a b).toNat = a.toNat + 256 * b.toNat := by
  have := a.isLt
  have := b.isLt
  simp only [le16, BitVec.toNat_add, BitVec.toNat_mul, BitVec.toNat_setWidth, BitVec.toNat_ofNat]
  omega

theorem le32_toNat (a b c d : Byte) :
    (le32 a b c d).toNat =
      a.toNat + 256 * b.toNat + 65536 * c.toNat + 16777216 * d.toNat := by
  have := a.isLt
  have := b.isLt
  have := c.isLt
  have := d.isLt
  simp only [le32, BitVec.toNat_add, BitVec.toNat_mul, BitVec.toNat_setWidth, BitVec.toNat_ofNat]
  omega

theorem byteOf_toNat {w : Nat} (v : BitVec w) (k : Nat) :
    (byteOf v k).toNat = v.toNat / 2 ^ (8 * k) % 256 := by
  simp [byteOf, Nat.shiftRight_eq_div_pow]

theorem le16_byteOf (v : BitVec 16) : le16 (byteOf v 0) (byteOf v 1) = v := by
  have := v.isLt
  apply BitVec.eq_of_toNat_eq
  rw [le16_toNat, byteOf_toNat, byteOf_toNat]
  omega

theorem byteOf_le16_0 (a b : Byte) : byteOf (le16 a b) 0 = a := by
  have := a.isLt
  apply BitVec.eq_of_toNat_eq
  rw [byteOf_toNat, le16_toNat]
  omega

theorem byteOf_le16_1 (a b : Byte) : byteOf (le16 a b) 1 = b := by
  have := a.isLt
  have := b.isLt
  apply BitVec.eq_of_toNat_eq
  rw [byteOf_toNat, le16_toNat]
  omega

theorem le32_byteOf (v : BitVec 32) :
    le32 (byteOf v 0) (byteOf v 1) (byteOf v 2) (byteOf v 3) = v := by
  have := v.isLt
  apply BitVec.eq_of_toNat_eq
  rw [le32_toNat, byteOf_toNat, byteOf_toNat, byteOf_toNat, byteOf_toNat]
  omega

theorem byteOf_le32_0 (a b c d : Byte) : byteOf (le32 a b c d) 0 = a := by
  have := a.isLt
  apply BitVec.eq_of_toNat_eq
  rw [byteOf_toNat, le32_toNat]
  omega

theorem byteOf_le32_1 (a b c d : Byte) : byteOf (le32 a b c d) 1 = b := by
  have := a.isLt
  have := b.isLt
  apply BitVec.eq_of_toNat_eq
  rw [byteOf_toNat, le32_toNat]
  omega

theorem byteOf_le32_2 (a b c d : Byte) : byteOf (le32 a b c d) 2 = c := by
  have := a.isLt
  have := b.isLt
  have := c.isLt
  apply BitVec.eq_of_toNat_eq
  rw [byteOf_toNat, le32_toNat]
  omega

theorem byteOf_le32_3 (a b c d : Byte) : byteOf (le32 a b c d) 3 = d := by
  have := a.isLt
  have := b.isLt
  have := c.isLt
  have := d.isLt
  apply BitVec.eq_of_toNat_eq
  rw [byteOf_toNat, le32_toNat]
  omega

/-- A field that a byte was widened from reads back. -/
theorem narrow_setWidth {w : Nat} (h : w ≤ 8) (v : BitVec w) : narrow w (v.setWidth 8) = some v := by
  have hv := v.isLt
  have hp : 2 ^ w ≤ 2 ^ 8 := Nat.pow_le_pow_right (by decide) h
  have hn : (v.setWidth 8).toNat = v.toNat := by
    rw [BitVec.toNat_setWidth, Nat.mod_eq_of_lt (Nat.lt_of_lt_of_le hv hp)]
  simp only [narrow, hn, hv, if_true]
  congr 1
  apply BitVec.eq_of_toNat_eq
  rw [BitVec.toNat_setWidth, hn, Nat.mod_eq_of_lt hv]

/-- A field that fits is the byte it came from. -/
theorem setWidth_of_narrow {w : Nat} {b : Byte} {v : BitVec w} (h : narrow w b = some v) :
    v.setWidth 8 = b := by
  unfold narrow at h
  split at h
  · obtain rfl := Option.some.inj h
    apply BitVec.eq_of_toNat_eq
    have := b.isLt
    rw [BitVec.toNat_setWidth, BitVec.toNat_setWidth, Nat.mod_eq_of_lt (by assumption : b.toNat < _)]
    omega
  · cases h

end Sys2Proof.Machine
end

