-- ==== Sys2Proof/Laws/PerInstr.lean ====
section
/-! SUPPORT. Facts made per instruction: the family `Row` says that an instruction's first byte
matches its row of spec/opcode_table.json. -/

namespace Sys2Proof.Laws.Row

/-- The encoding starts with a byte that agrees with the row's pattern under the row's mask. -/
def Statement (i : Instr) : Prop :=
  ∃ b rest, encode i = b :: rest ∧ b &&& (rowOf i).2 = (rowOf i).1

theorem scanOther (b : Byte) : Statement (.scanOther b) := ⟨b, [], rfl, by simp [rowOf]⟩
theorem scanGotDle : Statement .scanGotDle := ⟨_, [], rfl, by simp only [rowOf]; decide⟩
theorem frameStart : Statement .frameStart := ⟨_, [], rfl, by simp only [rowOf]; decide⟩
theorem scanDleDle : Statement .scanDleDle := ⟨_, [], rfl, by simp only [rowOf]; decide⟩
theorem scanDleOther (b : Byte) : Statement (.scanDleOther b) := ⟨b, [], rfl, by simp [rowOf]⟩
theorem bodyDle : Statement .bodyDle := ⟨_, [], rfl, by simp only [rowOf]; decide⟩
theorem bodyData (b : Byte) : Statement (.bodyData b) := ⟨b, [], rfl, by simp [rowOf]⟩
theorem escDle : Statement .escDle := ⟨_, [], rfl, by simp only [rowOf]; decide⟩
theorem frameEnd : Statement .frameEnd := ⟨_, [], rfl, by simp only [rowOf]; decide⟩
theorem bodyEscStx : Statement .bodyEscStx := ⟨_, [], rfl, by simp only [rowOf]; decide⟩
theorem badEscape (b : Byte) : Statement (.badEscape b) := ⟨b, [], rfl, by simp [rowOf]⟩
theorem bst93 (tail : List Byte) : Statement (.bst93 tail) := ⟨_, tail, rfl, by simp only [rowOf]; decide⟩
theorem bst94 (tail : List Byte) : Statement (.bst94 tail) := ⟨_, tail, rfl, by simp only [rowOf]; decide⟩
theorem bst95 (tail : List Byte) : Statement (.bst95 tail) := ⟨_, tail, rfl, by simp only [rowOf]; decide⟩
theorem bstD0 (tail : List Byte) : Statement (.bstD0 tail) := ⟨_, tail, rfl, by simp only [rowOf]; decide⟩
theorem bstUnknown (id : Byte) (tail : List Byte) : Statement (.bstUnknown id tail) :=
  ⟨id, tail, rfl, by simp [rowOf]⟩
theorem reset : Statement .reset := ⟨_, [], rfl, by simp only [rowOf]; decide⟩
theorem feed (b : Byte) : Statement (.feed b) := ⟨_, [b], rfl, by simp only [rowOf]; decide⟩
theorem feedChunk (bs : List Byte) : Statement (.feedChunk bs) := ⟨_, bs, rfl, by simp only [rowOf]; decide⟩
theorem encodeFrame (payload : List Byte) : Statement (.encodeFrame payload) :=
  ⟨_, payload, rfl, by simp only [rowOf]; decide⟩
theorem encodeBst (r : BstRec) : Statement (.encodeBst r) :=
  ⟨_, r.tag :: r.bytes, rfl, by simp only [rowOf]; decide⟩

end Sys2Proof.Laws.Row
end

