-- ==== Sys2Proof/Machine/Text.lean ====
section
/-! DEFINITION. The textual syntax of host operations (spec/30_encoding.md R64), as printed text.
What R64 leaves free (spaces, which fields are hexadecimal) follows spec/95_test_vectors.md
(log 21). -/

namespace Sys2Proof.Machine

/-- A hexadecimal digit, capital letters. -/
def hexDigit (n : Nat) : Char := Char.ofNat (if n < 10 then 48 + n else 55 + n)

/-- `v` in `k` hexadecimal digits, without prefix (R8, R64). -/
def hexDigits (k v : Nat) : List Char :=
  (List.range k).reverse.map fun i => hexDigit (v / 16 ^ i % 16)

/-- R64: bytes "in hexadecimal without prefix", a space between. -/
def bytesText : List Byte → List Char
  | [] => []
  | [b] => hexDigits 2 b.toNat
  | b :: rest => hexDigits 2 b.toNat ++ ' ' :: bytesText rest

/-- R64: "fields in hexadecimal with `0x`". -/
def hexField (name : String) (k v : Nat) : List Char := (name ++ "=0x").toList ++ hexDigits k v

/-- R64: fields in decimal. -/
def decField (name : String) (v : Nat) : List Char := (name ++ "=").toList ++ Nat.toDigits 10 v

/-- R64: the data field. -/
def dataField (data : List Byte) : List Char := "data=[".toList ++ bytesText data ++ [']']

/-- R64: the fields between braces, a comma and a space between. -/
def recordText (fields : List (List Char)) : List Char :=
  Char.ofNat 123 :: (List.intercalate [',', ' '] fields ++ [Char.ofNat 125])

/-- R64: the fields of BST 93 and 94. -/
def ngtText (r : Bst93Rec) : List Char :=
  recordText [decField "prio" r.prio.toNat, hexField "pdus" 2 r.pdus.toNat,
    hexField "pduf" 2 r.pduf.toNat, decField "dp" r.dp.toNat, hexField "dst" 2 r.dst.toNat,
    dataField r.data]

/-- R64: the fields of BST 95. -/
def canText (r : Bst95Rec) : List Char :=
  recordText [hexField "ts" 4 r.ts.toNat, decField "trc" r.trc.toNat, hexField "src" 2 r.src.toNat,
    hexField "pdus" 2 r.pdus.toNat, hexField "pduf" 2 r.pduf.toNat, decField "dp" r.dp.toNat,
    decField "prio" r.prio.toNat, decField "dir" r.dir.toNat, dataField r.data]

/-- R64: the fields of BST D0. -/
def n2kText (r : BstD0Rec) : List Char :=
  recordText [hexField "dst" 2 r.dst.toNat, hexField "src" 2 r.src.toNat,
    hexField "pdus" 2 r.pdus.toNat, hexField "pduf" 2 r.pduf.toNat, hexField "dpp" 2 r.dpp.toNat,
    hexField "ctrl" 2 r.ctrl.toNat, hexField "ts" 8 r.ts.toNat, dataField r.data]

/-- R64: a mnemonic and its operands; an empty list of bytes leaves the mnemonic alone. -/
def withBytes (mnemonic : String) (bs : List Byte) : List Char :=
  mnemonic.toList ++ (if bs = [] then [] else ' ' :: bytesText bs)

/-- R64: one host operation as a line of text; the rows of the other decode points have no text. -/
def opText : Instr → Option (List Char)
  | .reset => some "RESET".toList
  | .feed b => some (withBytes "FEED" [b])
  | .feedChunk bs => some (withBytes "FEED_CHUNK" bs)
  | .encodeFrame payload => some (withBytes "ENCODE_FRAME" payload)
  | .encodeBst (.bst93 r) => some ("ENCODE_BST 93 ".toList ++ ngtText r)
  | .encodeBst (.bst94 r) => some ("ENCODE_BST 94 ".toList ++ ngtText r)
  | .encodeBst (.bst95 r) => some ("ENCODE_BST 95 ".toList ++ canText r)
  | .encodeBst (.bstD0 r) => some ("ENCODE_BST D0 ".toList ++ n2kText r)
  | .scanOther _ | .scanGotDle | .frameStart | .scanDleDle | .scanDleOther _ | .bodyDle
  | .bodyData _ | .escDle | .frameEnd | .bodyEscStx | .badEscape _ => none
  | .bst93 _ | .bst94 _ | .bst95 _ | .bstD0 _ | .bstUnknown _ _ => none

end Sys2Proof.Machine
end

