-- ==== Sys2Proof/Tests/Slice0.lean ====
section
/-! SUPPORT. The model's own tests. Expected results are taken from spec/ (the test vector or rule is
named), never from the model. -/

namespace Sys2Proof.Tests

open Sys2Proof.Machine

/-- A small state: power-on, but for the decoder's state and buffer. -/
def stateAt (rx : RxState) (buf : List Byte) : State :=
  { State.reset with rxState := rx, buf := buf }

/-- The state with one event more. -/
def withEvent (e : Event) (s : State) : State := { s with evt := s.evt ++ [e] }

/-- `n` bytes of 00, kept folded so that their length is known without counting. -/
def zeros (n : Nat) : List Byte := List.replicate n 0x00#8

@[simp] theorem zeros_length (n : Nat) : (zeros n).length = n := List.length_replicate

/-! ### WellFormed refuses each kind of ill-formed term -/

theorem test_wf_scanOther_dle : wellFormed (.scanOther 0x10#8) = false := by decide
theorem test_wf_scanDleOther_stx : wellFormed (.scanDleOther 0x02#8) = false := by decide
theorem test_wf_scanDleOther_dle : wellFormed (.scanDleOther 0x10#8) = false := by decide
theorem test_wf_bodyData_dle : wellFormed (.bodyData 0x10#8) = false := by decide
theorem test_wf_badEscape_stx : wellFormed (.badEscape 0x02#8) = false := by decide
theorem test_wf_badEscape_etx : wellFormed (.badEscape 0x03#8) = false := by decide
theorem test_wf_badEscape_dle : wellFormed (.badEscape 0x10#8) = false := by decide
theorem test_wf_bstUnknown_93 : wellFormed (.bstUnknown 0x93#8 []) = false := by decide
theorem test_wf_bstUnknown_94 : wellFormed (.bstUnknown 0x94#8 []) = false := by decide
theorem test_wf_bstUnknown_95 : wellFormed (.bstUnknown 0x95#8 []) = false := by decide
theorem test_wf_bstUnknown_D0 : wellFormed (.bstUnknown 0xD0#8 []) = false := by decide
theorem test_wf_badEscape_41 : wellFormed (.badEscape 0x41#8) = true := by decide

/-! ### Decoding: a word of each row, from spec/opcode_table.json, R45, R47 and R63 -/

theorem test_decode_scanOther : decode (.wire .scan) [0x02#8] = .ok (.scanOther 0x02#8) := rfl
theorem test_decode_scanGotDle : decode (.wire .scan) [0x10#8] = .ok .scanGotDle := rfl
theorem test_decode_frameStart : decode (.wire .scanDle) [0x02#8] = .ok .frameStart := rfl
theorem test_decode_scanDleDle : decode (.wire .scanDle) [0x10#8] = .ok .scanDleDle := rfl
theorem test_decode_scanDleOther :
    decode (.wire .scanDle) [0x03#8] = .ok (.scanDleOther 0x03#8) := rfl
theorem test_decode_bodyDle : decode (.wire .body) [0x10#8] = .ok .bodyDle := rfl
theorem test_decode_bodyData : decode (.wire .body) [0x03#8] = .ok (.bodyData 0x03#8) := rfl
theorem test_decode_escDle : decode (.wire .bodyEsc) [0x10#8] = .ok .escDle := rfl
theorem test_decode_frameEnd : decode (.wire .bodyEsc) [0x03#8] = .ok .frameEnd := rfl
theorem test_decode_bodyEscStx : decode (.wire .bodyEsc) [0x02#8] = .ok .bodyEscStx := rfl
theorem test_decode_badEscape : decode (.wire .bodyEsc) [0x41#8] = .ok (.badEscape 0x41#8) := rfl
theorem test_decode_bst93 : decode .frame [0x93#8, 0x00#8] = .ok (.bst93 [0x00#8]) := rfl
theorem test_decode_bst94 : decode .frame [0x94#8, 0x06#8] = .ok (.bst94 [0x06#8]) := rfl
theorem test_decode_bst95 : decode .frame [0x95#8] = .ok (.bst95 []) := rfl
theorem test_decode_bstD0 : decode .frame [0xD0#8, 0x00#8, 0x00#8] = .ok (.bstD0 [0x00#8, 0x00#8]) :=
  rfl
theorem test_decode_bstUnknown : decode .frame [0xA0#8, 0x01#8] = .ok (.bstUnknown 0xA0#8 [0x01#8]) :=
  rfl
theorem test_decode_reset : decode .hostOp [0x00#8] = .ok .reset := rfl
theorem test_decode_feed : decode .hostOp [0x01#8, 0x10#8] = .ok (.feed 0x10#8) := rfl
theorem test_decode_feedChunk : decode .hostOp [0x02#8, 0x10#8, 0x02#8] =
    .ok (.feedChunk [0x10#8, 0x02#8]) := rfl
theorem test_decode_encodeFrame : decode .hostOp [0x03#8, 0xF0#8] = .ok (.encodeFrame [0xF0#8]) := rfl

/-- The record of ME2, its fields in the order of R24 (log 5). -/
theorem test_decode_encodeBst94 :
    decode .hostOp [0x04#8, 0x94#8, 0x02#8, 0x00#8, 0xEA#8, 0x00#8, 0x25#8] =
      .ok (.encodeBst (.bst94 ⟨2#3, 0x00#8, 0xEA#8, 0#2, 0x25#8, []⟩)) := rfl

/-- The record of ME6, its fields in the order of R25 (log 5). -/
theorem test_decode_encodeBst95 :
    decode .hostOp [0x04#8, 0x95#8, 0xCD#8, 0xAB#8, 0x02#8, 0x10#8, 0xFF#8, 0x00#8, 0x00#8, 0x06#8,
      0x01#8] =
      .ok (.encodeBst (.bst95 ⟨0xABCD#16, 2#2, 0x10#8, 0xFF#8, 0x00#8, 0#2, 6#3, 1#1, []⟩)) := rfl

/-- A priority of 8 is no `u3` (R24, R124). -/
theorem test_decode_encodeBst_ill_typed :
    decode .hostOp [0x04#8, 0x93#8, 0x08#8, 0x00#8, 0xEA#8, 0x00#8, 0x25#8] =
      .error (.illTypedOperand 0x04#8) := rfl

/-- HO6: code 05. -/
theorem test_decode_unassigned : decode .hostOp [0x05#8] = .error (.unassignedOpcode 0x05#8) := rfl

/-- A bare table word (log 7): the row, and the step runs it first after reset (log 8). -/
theorem test_tableWord_bst93 : decodeTableWord 8 0x93 = some (.bst93 []) := by decide
theorem test_tableWord_feed : decodeTableWord 8 0x01 = some (.feed 0x00#8) := by decide
theorem test_tableWord_scanGotDle_runs :
    step (State.reset.withFetchWord 8 0x10) = .next (stateAt .scanDle []) := rfl

/-! ### Wire symbols (spec/95 section 2) -/

theorem test_FD15 : exec (.feed 0x02#8) (stateAt .scan []) = .next (stateAt .scan []) := rfl
theorem test_scanOther : exec (.scanOther 0xAA#8) (stateAt .scan []) = .next (stateAt .scan []) := rfl
theorem test_FD16 : exec .scanGotDle (stateAt .scan []) = .next (stateAt .scanDle []) := rfl
theorem test_R69 : exec .frameStart (stateAt .scanDle []) = .next (stateAt .body []) := rfl
theorem test_FD18 : exec .scanDleDle (stateAt .scanDle []) = .next (stateAt .scanDle []) := rfl
theorem test_FD17 : exec (.scanDleOther 0x03#8) (stateAt .scanDle []) = .next (stateAt .scan []) := rfl
theorem test_FD19 :
    exec .bodyDle (stateAt .body [0x95#8]) = .next (stateAt .bodyEsc [0x95#8]) := rfl
theorem test_R73 : exec (.bodyData 0x95#8) (stateAt .body []) = .next (stateAt .body [0x95#8]) := rfl

/-- R78's example: the 1800th byte. -/
theorem test_R78 : exec (.bodyData 0x00#8) (stateAt .body (zeros 1799)) =
    .next (withEvent (.err (.frameTooLarge 1798)) (stateAt .scan [])) := by
  have h : append 0x00#8 (stateAt .body (zeros 1799)) = _ :=
    append_full (by simp [stateAt, Config.default])
  simp only [exec, execBodyData, bodyData, h]
  rfl

theorem test_FD20 :
    exec .escDle (stateAt .bodyEsc [0x95#8]) = .next (stateAt .body [0x95#8, 0x10#8]) := rfl
theorem test_FD21 : exec .frameEnd (stateAt .bodyEsc [0x00#8, 0x00#8]) =
    .next (withEvent (.err (.unknownMessageType 0x00#8 1)) (stateAt .scan [])) := rfl
/-- FD4. -/
theorem test_FD4 : exec .frameEnd (stateAt .bodyEsc [0x93#8, 0x00#8]) =
    .next (withEvent (.err (.checksumMismatch 1 (some 0x00#8) (some 0x6D#8))) (stateAt .scan [])) :=
  rfl
/-- R77's example. -/
theorem test_R77 : exec .bodyEscStx (stateAt .bodyEsc [0x95#8, 0x0E#8, 0x01#8]) =
    .next (withEvent (.err (.unescapedControlByte 0x02#8 3)) (stateAt .body [])) := rfl
/-- R79's example. -/
theorem test_R79 : exec (.badEscape 0x41#8) (stateAt .bodyEsc [0x95#8]) =
    .next (withEvent (.err (.unescapedControlByte 0x41#8 1)) (stateAt .scan [])) := rfl

/-! ### BST raw frames (spec/95 section 4) -/

theorem test_MD1 : exec (.bst93 [0x0E#8, 0x03#8, 0x10#8, 0xF0#8, 0x01#8, 0xFF#8, 0x08#8, 0x00#8,
    0x01#8, 0x02#8, 0x03#8, 0x04#8, 0x05#8, 0x06#8, 0x07#8]) State.reset =
    .next (withEvent (.msg .bst 0x93#8 (.bst93 ⟨3#3, 0x10#8, 0xF0#8, 1#2, 0xFF#8, [0x00#8, 0x01#8,
      0x02#8, 0x03#8, 0x04#8, 0x05#8, 0x06#8, 0x07#8]⟩)) State.reset) := rfl
/-- MD8: L agrees, DL does not. -/
theorem test_MD8 : exec (.bst93 [0x0E#8, 0x00#8, 0x00#8, 0x00#8, 0x00#8, 0x00#8, 0x07#8, 0x00#8,
    0x00#8, 0x00#8, 0x00#8, 0x00#8, 0x00#8, 0x00#8, 0x00#8]) State.reset =
    .next (withEvent (.err (.layoutLengthMismatch (some 0x93#8) .dl 7 8)) State.reset) := rfl
theorem test_MD2 : exec (.bst94 [0x06#8, 0x02#8, 0x00#8, 0xEA#8, 0x00#8, 0x25#8, 0x00#8])
    State.reset = .next (withEvent (.msg .bst 0x94#8
      (.bst94 ⟨2#3, 0x00#8, 0xEA#8, 0#2, 0x25#8, []⟩)) State.reset) := rfl
/-- MD3's frame with tag 94: the reserved bits are ignored. -/
theorem test_R49 : exec (.bst94 [0x06#8, 0xFB#8, 0x00#8, 0xEA#8, 0xFE#8, 0x25#8, 0x00#8])
    State.reset = .next (withEvent (.msg .bst 0x94#8
      (.bst94 ⟨3#3, 0x00#8, 0xEA#8, 2#2, 0x25#8, []⟩)) State.reset) := rfl
theorem test_MD11 : exec (.bst95 [0x06#8, 0xFF#8, 0xFF#8, 0x01#8, 0x25#8, 0xEA#8, 0xE5#8])
    State.reset = .next (withEvent (.msg .bst 0x95#8
      (.bst95 ⟨0xFFFF#16, 3#2, 0x01#8, 0x25#8, 0xEA#8, 1#2, 1#3, 1#1, []⟩)) State.reset) := rfl
/-- MD12: nine data bytes. -/
theorem test_MD12 : exec (.bst95 (0x0F#8 :: zeros 15)) State.reset =
    .next (withEvent (.err (.layoutLengthMismatch (some 0x95#8) .data 8 9)) State.reset) := rfl
theorem test_MD15 : exec (.bstD0 [0x03#8, 0x00#8, 0xFF#8, 0x23#8, 0x02#8, 0xFD#8, 0x09#8, 0x00#8,
    0x78#8, 0x56#8, 0x34#8, 0x12#8, 0xAA#8, 0xBB#8, 0xCC#8]) State.reset =
    .next (withEvent (.msg .bst 0xD0#8 (.bstD0 ⟨0xFF#8, 0x23#8, 0x02#8, 0xFD#8, 0x09#8, 0x00#8,
      0x12345678#32, [0xAA#8, 0xBB#8, 0xCC#8]⟩)) State.reset) := rfl
/-- MD19: LL = 1786, checked before its agreement. -/
theorem test_MD19 : exec (.bstD0 (0xFA#8 :: 0x06#8 :: zeros 10)) State.reset =
    .next (withEvent (.err (.layoutLengthMismatch (some 0xD0#8) .data 1785 1786)) State.reset) := rfl
theorem test_MD21 : exec (.bstUnknown 0xA0#8 [0x01#8, 0x02#8]) State.reset =
    .next (withEvent (.err (.unknownMessageType 0xA0#8 3)) State.reset) := rfl

/-! ### Host operations (spec/95 sections 3, 5, 7) -/

/-- HO4. -/
theorem test_HO4 : exec .reset (stateAt .body [0x95#8, 0x0E#8]) = .next (stateAt .scan []) := rfl
/-- HO3. -/
theorem test_HO3 : exec (.feedChunk [0x10#8, 0x02#8, 0x00#8, 0x00#8, 0x10#8, 0x03#8, 0x10#8, 0x02#8])
    State.reset = .next (withEvent (.err (.unknownMessageType 0x00#8 1)) (stateAt .body [])) := rfl
/-- W2, the corrected input: the decode scenario of BST 95. -/
theorem test_W2 : exec (.feedChunk [0x10#8, 0x02#8, 0x95#8, 0x0E#8, 0x01#8, 0x20#8, 0x30#8, 0x02#8,
    0xF8#8, 0x09#8, 0xFF#8, 0xFC#8, 0x37#8, 0x0A#8, 0x00#8, 0x10#8, 0x10#8, 0xFF#8, 0xFF#8, 0xBF#8,
    0x10#8, 0x03#8]) State.reset =
    .next (withEvent (.msg .bst 0x95#8 (.bst95 ⟨0x2001#16, 0#2, 0x30#8, 0x02#8, 0xF8#8, 1#2, 2#3,
      0#1, [0xFF#8, 0xFC#8, 0x37#8, 0x0A#8, 0x00#8, 0x10#8, 0xFF#8, 0xFF#8]⟩)) State.reset) := rfl
/-- FE3: a stuffed checksum; HO5: the RX state is untouched. -/
theorem test_FE3_HO5 : exec (.encodeFrame [0xF0#8]) (stateAt .bodyEsc [0x95#8]) =
    .next { stateAt .bodyEsc [0x95#8] with
      txout := [0x10#8, 0x02#8, 0xF0#8, 0x10#8, 0x10#8, 0x10#8, 0x03#8],
      results := [.ok [0x10#8, 0x02#8, 0xF0#8, 0x10#8, 0x10#8, 0x10#8, 0x03#8]] } := rfl
/-- FE10: 1799 bytes are refused. -/
theorem test_FE10 : exec (.encodeFrame (zeros 1799)) State.reset =
    .next { State.reset with results := [.refused (.frameTooLarge 1798)] } := by
  simp [exec, execEncodeFrame, transmit, answer, Config.default]
/-- ME6. -/
theorem test_ME6 : exec (.encodeBst (.bst95 ⟨0xABCD#16, 2#2, 0x10#8, 0xFF#8, 0x00#8, 0#2, 6#3, 1#1,
    []⟩)) State.reset =
    .next { State.reset with
      txout := [0x10#8, 0x02#8, 0x95#8, 0x06#8, 0xCD#8, 0xAB#8, 0x10#8, 0x10#8, 0xFF#8, 0x00#8,
        0xD8#8, 0x06#8, 0x10#8, 0x03#8],
      results := [.ok [0x10#8, 0x02#8, 0x95#8, 0x06#8, 0xCD#8, 0xAB#8, 0x10#8, 0x10#8, 0xFF#8,
        0x00#8, 0xD8#8, 0x06#8, 0x10#8, 0x03#8]] } := rfl
/-- ME7: nine data bytes are refused. -/
theorem test_ME7 : exec (.encodeBst (.bst95 ⟨0#16, 0#2, 0#8, 0#8, 0#8, 0#2, 0#3, 0#1,
    zeros 9⟩)) State.reset =
    .next { State.reset with
      results := [.refused (.layoutLengthMismatch (some 0x95#8) .data 8 9)] } := rfl

/-! ### Derived values and text -/

/-- R59's examples. -/
theorem test_pgn : pgn 1#2 0xF8#8 0x02#8 = 129026#18 ∧ pgn 0#2 0xEA#8 0x25#8 = 59904#18 ∧
    pgn 1#2 0xF0#8 0x10#8 = 126992#18 := by decide
/-- MD16's accessors. -/
theorem test_accessors : dpD0 0x18#8 = 0#2 ∧ prioD0 0x18#8 = 6#3 ∧ seqD0 0xE0#8 = 7#3 ∧
    pgnCtlD0 0xE0#8 = 0#5 := by decide
/-- R64: `FEED_CHUNK 10 02`. -/
theorem test_text_feedChunk :
    opText (.feedChunk [0x10#8, 0x02#8]) = some "FEED_CHUNK 10 02".toList := by decide

/-! ### Witnesses: states and operands that meet the statements' hypotheses, one for each statement
that has any, with the boundary of each clause -/

theorem witness_ResetDropsThePartialFrameSilently :
    State.reset.rxState = .scan ∧ State.reset.buf = [] := by decide
theorem witness_ScanDiscardsOtherBytes : (stateAt .scan []).rxState = .scan ∧ 0x02#8 ≠ dle := by decide
theorem witness_ScanRemembersTheDle : (stateAt .scan []).rxState = .scan := by decide
theorem witness_DleStxOpensAFrame : (stateAt .scanDle []).rxState = .scanDle := by decide
theorem witness_DleDleWhileScanningStays :
    (stateAt .scanDle []).rxState = .scanDle ∧ (stateAt .scan []).rxState = .scan := by decide
theorem witness_ScanDleOtherByteReturnsToScan :
    (stateAt .scanDle []).rxState = .scanDle ∧ etx ≠ stx ∧ etx ≠ dle := by decide
theorem witness_BodyDleMarksAnEscape : (stateAt .body [0x95#8]).rxState = .body := by decide
theorem witness_AppendStoresOrOverflows :
    (stateAt .body (zeros 1799)).buf.length =
      (stateAt .body (zeros 1799)).cfg.maxFrame + 1 ∧
    (stateAt .body (zeros 1798)).buf.length ≠
      (stateAt .body (zeros 1798)).cfg.maxFrame + 1 := by
  simp [stateAt, Config.default]
theorem witness_BodyDataByteIsAppended :
    (∃ s : State, s.rxState = .body ∧ etx ≠ dle ∧ s.buf.length = s.cfg.maxFrame + 1) ∧
    ∃ s : State, s.rxState = .body ∧ etx ≠ dle ∧ s.buf.length ≠ s.cfg.maxFrame + 1 :=
  ⟨⟨stateAt .body (zeros 1799), by simp [stateAt, Config.default]⟩,
    ⟨stateAt .body (zeros 1798), by simp [stateAt, Config.default]⟩⟩
theorem witness_StuffedDleIsOneByte :
    (∃ s : State, s.rxState = .bodyEsc ∧ s.buf.length = s.cfg.maxFrame + 1) ∧
    (∃ s : State, s.rxState = .bodyEsc ∧ s.buf.length ≠ s.cfg.maxFrame + 1) ∧
    ∃ s : State, s.rxState = .body ∧ s.buf.length + 2 ≤ s.cfg.maxFrame + 1 :=
  ⟨⟨stateAt .bodyEsc (zeros 1799), by simp [stateAt, Config.default]⟩,
    ⟨stateAt .bodyEsc (zeros 1798), by simp [stateAt, Config.default]⟩,
    ⟨stateAt .body (zeros 1797), by simp [stateAt, Config.default]⟩⟩
theorem witness_FrameEndVerifiesTheChecksum :
    (stateAt .bodyEsc []).rxState = .bodyEsc ∧ (stateAt .bodyEsc []).buf = [] ∧
    ((stateAt .bodyEsc [0x00#8]).buf = [] ++ [0x00#8] ∧ sum8 (stateAt .bodyEsc [0x00#8]).buf = 0#8) ∧
    ((stateAt .bodyEsc [0x01#8]).buf = [] ++ [0x01#8] ∧
      sum8 (stateAt .bodyEsc [0x01#8]).buf ≠ 0#8) := by decide
theorem witness_StxInAFrameReportsAndReopens : (stateAt .bodyEsc []).rxState = .bodyEsc := by decide
theorem witness_BadEscapeReportsAndResynchronises :
    (stateAt .bodyEsc [0x95#8]).rxState = .bodyEsc ∧ 0x41#8 ≠ stx ∧ 0x41#8 ≠ etx ∧ 0x41#8 ≠ dle := by
  decide
theorem witness_RowsOutsideTheirStateDoNothing :
    (stateAt .body []).rxState ≠ .scan ∧ (stateAt .body []).rxState ≠ .scanDle ∧
    (stateAt .scan []).rxState ≠ .body ∧ (stateAt .body []).rxState ≠ .bodyEsc := by decide
theorem witness_BstDecodeEmitsOneEvent :
    decodeFrame [] = none ∧ decodeFrame [0x00#8] = some (.bstUnknown 0x00#8 []) := by decide
theorem witness_UnknownIdentifierIsReported :
    0x92#8 ≠ 0x93#8 ∧ 0x92#8 ≠ 0x94#8 ∧ 0x92#8 ≠ 0x95#8 ∧ 0x92#8 ≠ 0xD0#8 := by decide
theorem witness_PgnIsReconstructed : (239#8).toNat < 240 ∧ ¬ (240#8).toNat < 240 := by decide
/-- A BST 95 record with a given PDU format byte. -/
def canOf (pduf : Byte) : Bst95Rec := ⟨0#16, 0#2, 0#8, 0#8, pduf, 0#2, 0#3, 0#1, []⟩
theorem witness_DestinationIsTheLayouts :
    (canOf 239#8).pduf.toNat < 240 ∧ 240 ≤ (canOf 240#8).pduf.toNat := by decide
theorem witness_EncodeFrameAppendsTheFrame :
    (zeros 1798).length ≤ State.reset.cfg.maxFrame ∧
    State.reset.cfg.maxFrame < (zeros 1799).length := by
  simp [Config.default]
theorem witness_EncodedFrameDeterminesThePayload : wireFrame [0x10#8] = wireFrame [0x10#8] := rfl
/-- A BST 93 record with `n` data bytes. -/
def ngtOf (n : Nat) : Bst93Rec := ⟨0#3, 0#8, 0#8, 0#2, 0#8, zeros n⟩
/-- A BST 95 and a BST D0 record with `n` data bytes. -/
def canWith (n : Nat) : Bst95Rec := { canOf 0#8 with data := zeros n }
def n2kWith (n : Nat) : BstD0Rec := ⟨0#8, 0#8, 0#8, 0#8, 0#8, 0#8, 0#32, zeros n⟩
theorem witness_EncodeBstAppendsTheLayoutsFrame :
    (∀ r ∈ [BstRec.bst93 (ngtOf 249), .bst94 (ngtOf 249), .bst95 (canWith 8), .bstD0 (n2kWith 1785)],
      r.data.length ≤ maxData r) ∧
    ∀ r ∈ [BstRec.bst93 (ngtOf 250), .bst94 (ngtOf 250), .bst95 (canWith 9), .bstD0 (n2kWith 1786)],
      maxData r < r.data.length := by
  simp [BstRec.data, ngtOf, canWith, n2kWith, maxData]
theorem witness_FeedChunkFeedsEachByte :
    exec (.feed 0x10#8) State.reset = .next (stateAt .scanDle []) := rfl
theorem witness_StepRunsTheDecodedOperation :
    ({ State.reset with ops := [[0x01#8, 0x10#8]] } : State).ops = [0x01#8, 0x10#8] :: [] ∧
    decode .hostOp [0x01#8, 0x10#8] = .ok (.feed 0x10#8) ∧ State.reset.ops = [] := ⟨rfl, rfl, rfl⟩
theorem witness_StepRunsTheEncodedOperation : pointOf (.feed 0x10#8) = .hostOp := by decide
theorem witness_UnassignedOperationsAreRefused :
    5 ≤ (0x05#8).toNat ∧ 5 ≤ (0xFF#8).toNat ∧
    0x00#8 ≠ 0x93#8 ∧ 0x00#8 ≠ 0x94#8 ∧ 0x00#8 ≠ 0x95#8 ∧ 0x00#8 ≠ 0xD0#8 := by decide
theorem witness_DecodeOfEncodeIsTheInstruction : (Instr.badEscape 0x41#8).WellFormed := by decide
theorem witness_DecodedBytesReencode :
    decode .hostOp [0x04#8, 0x94#8, 0x07#8, 0x00#8, 0xEA#8, 0x03#8, 0x25#8] =
      .ok (.encodeBst (.bst94 ⟨7#3, 0x00#8, 0xEA#8, 3#2, 0x25#8, []⟩)) := rfl
theorem witness_EveryStepKeepsTheInvariant :
    Inv { State.reset with ops := [[0x01#8, 0x10#8]] } ∧
    step { State.reset with ops := [[0x01#8, 0x10#8]] } = .next (stateAt .scanDle []) :=
  ⟨⟨⟨by simp, by simp⟩, by simp [EvtOk], by simp [TxOk, okBytes]⟩, rfl⟩
theorem witness_StreamsOnlyGrow :
    step { State.reset with ops := [[0x00#8]] } = .next State.reset := rfl
theorem witness_AtMostOneEventPerByte :
    exec (.feed etx) (stateAt .bodyEsc [0x00#8, 0x00#8]) =
      .next (withEvent (.err (.unknownMessageType 0x00#8 1)) (stateAt .scan [])) ∧
    exec (.feedChunk [etx]) (stateAt .bodyEsc [0x00#8, 0x00#8]) =
      .next (withEvent (.err (.unknownMessageType 0x00#8 1)) (stateAt .scan [])) := ⟨rfl, rfl⟩
/-- A frame-layer error that reopens a frame, one that does not, and a message-layer error. -/
theorem witness_ErrorsLeaveNoFrame :
    exec (.feed stx) (stateAt .bodyEsc [0x95#8]) =
      .next (withEvent (.err (.unescapedControlByte stx 1)) (stateAt .body [])) ∧
    (CodecError.unescapedControlByte stx 1).kind.layer = .frame ∧
    exec (.feed 0x41#8) (stateAt .bodyEsc [0x95#8]) =
      .next (withEvent (.err (.unescapedControlByte 0x41#8 1)) (stateAt .scan [])) ∧
    (CodecError.unescapedControlByte 0x41#8 1).kind.layer = .frame ∧
    exec (.feed etx) (stateAt .bodyEsc [0x00#8, 0x00#8]) =
      .next (withEvent (.err (.unknownMessageType 0x00#8 1)) (stateAt .scan [])) ∧
    (CodecError.unknownMessageType 0x00#8 1).kind.layer = .message := ⟨rfl, rfl, rfl, rfl, rfl, rfl⟩
/-- A state that no run reaches, in which the host has the transport's error in the stream. -/
theorem witness_TransportErrorIsNeverRaised :
    step { State.reset with evt := [.err .transportNotConnected], ops := [[0x00#8]] } =
      .next { State.reset with evt := [.err .transportNotConnected] } := rfl
theorem witness_ReceiveAndTransmitAreIndependent :
    (∃ s', exec (.encodeFrame [0x00#8]) (stateAt .bodyEsc [0x95#8]) = .next s') ∧
    (∃ s', exec (.encodeFrame [0x00#8]) (stateAt .scan []) = .next s') ∧
    (stateAt .bodyEsc [0x95#8]).cfg = (stateAt .scan []).cfg ∧
    (stateAt .bodyEsc [0x95#8]).txout = (stateAt .scan []).txout ∧
    (∃ s', exec (.feed dle) { State.reset with txout := [0x00#8] } = .next s') ∧
    ∃ s', exec (.feed dle) State.reset = .next s' :=
  ⟨⟨_, rfl⟩, ⟨_, rfl⟩, rfl, rfl, ⟨_, rfl⟩, ⟨_, rfl⟩⟩
theorem witness_FrameRoundTripFromScanning :
    (stateAt .scanDle []).rxState = .scan ∨ (stateAt .scanDle []).rxState = .scanDle := by decide
theorem witness_FrameRoundTripFromScanning_length :
    (zeros 1798).length ≤ (stateAt .scanDle []).cfg.maxFrame := by
  simp [stateAt, Config.default]
theorem witness_FrameAfterATruncatedFrame :
    (stateAt .body [0x95#8]).rxState = .body ∧
    [0x00#8].length ≤ (stateAt .body [0x95#8]).cfg.maxFrame := by decide
/-- Both outcomes of the merged buffer: `[E4] ++ [10 02] ++ [00] ++ [00]` does not verify, and
`[EE] ++ [10 02] ++ [00] ++ [00]` does. -/
theorem witness_FrameAfterALoneDleIsAbsorbed :
    (stateAt .bodyEsc [0xEE#8]).rxState = .bodyEsc ∧
    (stateAt .bodyEsc [0xEE#8]).buf.length + 2 + [0x00#8].length ≤
      (stateAt .bodyEsc [0xEE#8]).cfg.maxFrame ∧
    sum8 ([0xEE#8] ++ [dle, stx] ++ [0x00#8] ++ [checksum [0x00#8]]) = 0#8 ∧
    sum8 ([0xE4#8] ++ [dle, stx] ++ [0x00#8] ++ [checksum [0x00#8]]) ≠ 0#8 := by decide
theorem witness_DecoderResynchronises :
    [0x00#8].length ≤ (stateAt .bodyEsc [0x95#8]).cfg.maxFrame := by decide
theorem witness_MessageRoundTrip :
    bstValid (.bst93 (ngtOf 249)) = true ∧ State.reset.rxState = .scan := by
  simp [BstRec.data, ngtOf, maxData]
/-- MD3: reserved bits set. -/
theorem witness_EncodeAfterDecode :
    eventOfFrame [0x93#8, 0x06#8, 0xFB#8, 0x00#8, 0xEA#8, 0xFE#8, 0x25#8, 0x00#8] =
      .msg .bst 0x93#8 (.bst93 ⟨3#3, 0x00#8, 0xEA#8, 2#2, 0x25#8, []⟩) ∧
    clearReserved [0x93#8, 0x06#8, 0xFB#8, 0x00#8, 0xEA#8, 0xFE#8, 0x25#8, 0x00#8] =
      [0x93#8, 0x06#8, 0x03#8, 0x00#8, 0xEA#8, 0x02#8, 0x25#8, 0x00#8] := by decide
/-- CK1: checksum 55 changed to 56. -/
theorem witness_CorruptedChecksumIsReported :
    State.reset.rxState = .scan ∧
    [0x94#8, 0x06#8, 0x02#8, 0x00#8, 0xEA#8, 0x00#8, 0x25#8, 0x00#8].length ≤
      State.reset.cfg.maxFrame ∧
    checksum [0x94#8, 0x06#8, 0x02#8, 0x00#8, 0xEA#8, 0x00#8, 0x25#8, 0x00#8] = 0x55#8 ∧
    0x56#8 ≠ dle ∧ 0x56#8 ≠ 0x55#8 := by decide
theorem witness_NothingHappensWithoutAFrameStart :
    State.reset.rxState = .scan ∧ ∀ xs ys, [dle, etx] ≠ xs ++ [dle, stx] ++ ys := by
  refine ⟨rfl, fun xs ys h => ?_⟩
  have hm : stx ∈ [dle, etx] := by rw [h]; simp
  exact absurd hm (by decide)
theorem witness_OverlongFrameIsReportedOnce :
    State.reset.rxState = .scan ∧ (∀ d ∈ zeros 1800, d ≠ dle) ∧
    (zeros 1800).length = State.reset.cfg.maxFrame + 2 ∧
    (zeros 1799).length ≤ State.reset.cfg.maxFrame + 1 := by
  refine ⟨rfl, ?_, by simp [Config.default], by simp [Config.default]⟩
  intro d hd
  rw [List.eq_of_mem_replicate (show d ∈ List.replicate 1800 0x00#8 from hd)]
  decide
/-- Two states with one block and different host sides. -/
theorem witness_BlockKeepsNothingElse :
    ({ State.reset with ops := [[0x00#8]], results := [.ok []] } : State).toBlock =
      State.reset.toBlock ∧
    ({ State.reset with ops := [[0x00#8]], results := [.ok []] } : State).cfg = State.reset.cfg :=
  ⟨rfl, rfl⟩

end Sys2Proof.Tests
end

section
/-! Fetching as equations: what `step` answers with none waiting and with one that decodes
(spec/00_scope.md R5, spec/20_memory.md R34), and the obligation they settle. -/

namespace Sys2Proof.Proofs
open Sys2Proof Sys2Proof.Machine

theorem step_of_no_ops {s : State} (hops : s.ops = []) : step s = .next s := by
  obtain ⟨-, hstep⟩ | ⟨_, _, _, hcons, -⟩ | ⟨_, _, _, hcons, -⟩ := step_cases s
  · exact hstep
  · simp [hops] at hcons
  · simp [hops] at hcons

/-- R34: the operation that runs is the one in front, and it runs in the state without it. -/
theorem step_of_decode_ok {s : State} {op : List Byte} {rest : List (List Byte)} {i : Instr}
    (hops : s.ops = op :: rest) (hdec : decode .hostOp op = .ok i) :
    step s = exec i { s with ops := rest } := by
  obtain ⟨hnil, -⟩ | ⟨_, _, _, hcons, hok, hstep⟩ | ⟨_, _, _, hcons, herr, -⟩ := step_cases s
  · simp [hops] at hnil
  · obtain ⟨rfl, rfl⟩ := List.cons.inj (hops.symm.trans hcons)
    obtain rfl := Except.ok.inj (hdec.symm.trans hok)
    exact hstep
  · obtain ⟨rfl, rfl⟩ := List.cons.inj (hops.symm.trans hcons)
    simp [hdec] at herr

/-- Settles O35: `step` by its two equations, an operation that decodes and none waiting. -/
theorem stepRunsTheDecodedOperation : Obligations.StepRunsTheDecodedOperation :=
  ⟨fun _ _ _ _ hops hdec => step_of_decode_ok hops hdec, fun _ hops => step_of_no_ops hops⟩

end Sys2Proof.Proofs
end

section
/-! What an instruction does, as an effect on the block (spec/10_state.md R13, R27): a new block and
returned values, both fixed by the block, MAX_FRAME and the operands, with both output streams
extended (R20, R21). From it the two obligations on the state's elements. -/

namespace Sys2Proof.Proofs
open Sys2Proof Sys2Proof.Machine

/-- R20, R21: both output streams of `b` are kept, in front of whatever `b'` has more. -/
def Extends (b b' : Block) : Prop := b.evt <+: b'.evt ∧ b.txout <+: b'.txout

theorem Extends.refl (b : Block) : Extends b b := ⟨⟨[], List.append_nil _⟩, ⟨[], List.append_nil _⟩⟩

theorem Extends.trans {a b c : Block} (hab : Extends a b) (hbc : Extends b c) : Extends a c :=
  ⟨hab.1.trans hbc.1, hab.2.trans hbc.2⟩

/-- R13, R27: on the block `b` and configuration `c`, `f` gives one next block and one list of
returned values, the same whatever the host's side holds, and changes nothing else. -/
def HasEffect (f : State → State) (b : Block) (c : Config) : Prop :=
  ∃ (b' : Block) (rs : List OpResult), Extends b b' ∧
    ∀ h : HostSide, f ⟨b, h, c⟩ = ⟨b', { h with results := h.results ++ rs }, c⟩

section
variable {f g : State → State} {b : Block} {c : Config}

/-! ### Building effects -/

/-- An effect that returns nothing to the host. -/
theorem hasEffect_of_block {b' : Block} (hext : Extends b b') (hf : ∀ h, f ⟨b, h, c⟩ = ⟨b', h, c⟩) :
    HasEffect f b c :=
  ⟨b', [], hext, fun h => by simp [hf]⟩

theorem HasEffect.congr (hg : HasEffect g b c) (hfg : ∀ h, f ⟨b, h, c⟩ = g ⟨b, h, c⟩) :
    HasEffect f b c := by
  obtain ⟨b', rs, hext, heq⟩ := hg
  exact ⟨b', rs, hext, fun h => (hfg h).trans (heq h)⟩

theorem HasEffect.comp (hf : HasEffect f b c) (hg : ∀ b', HasEffect g b' c) :
    HasEffect (fun s => g (f s)) b c := by
  obtain ⟨b₁, rs₁, hext₁, hf⟩ := hf
  obtain ⟨b₂, rs₂, hext₂, hg⟩ := hg b₁
  exact ⟨b₂, rs₁ ++ rs₂, hext₁.trans hext₂, fun h => by simp [hf, hg]⟩

/-- A choice by the block and the configuration alone. -/
theorem HasEffect.ite (p : Block → Config → Prop) [∀ b c, Decidable (p b c)]
    (hf : HasEffect f b c) (hg : HasEffect g b c) :
    HasEffect (fun s => if p s.toBlock s.cfg then f s else g s) b c := by
  by_cases hp : p b c
  · exact hf.congr fun _ => if_pos hp
  · exact hg.congr fun _ => if_neg hp

/-! ### The shared operations -/

theorem hasEffect_id : HasEffect (fun s => s) b c :=
  hasEffect_of_block (.refl b) fun _ => rfl

theorem hasEffect_setRxState (st : RxState) : HasEffect (fun s => { s with rxState := st }) b c :=
  hasEffect_of_block (b' := { b with rxState := st }) (.refl b) fun _ => rfl

theorem hasEffect_openFrame : HasEffect openFrame b c :=
  hasEffect_of_block (b' := { b with rxState := .body, buf := [] }) (.refl b) fun _ => rfl

theorem hasEffect_toScan : HasEffect toScan b c :=
  hasEffect_of_block (b' := { b with rxState := .scan, buf := [] }) (.refl b) fun _ => rfl

theorem hasEffect_emit (e : Event) : HasEffect (emit e) b c :=
  hasEffect_of_block (b' := { b with evt := b.evt ++ [e] })
    ⟨⟨_, rfl⟩, ⟨[], List.append_nil _⟩⟩ fun _ => rfl

/-- The error raised is read off the block and the configuration. -/
theorem hasEffect_raise (e : Block → Config → CodecError) (st : RxState) :
    HasEffect (fun s => raise (e s.toBlock s.cfg) st s) b c :=
  hasEffect_of_block (b' := { b with evt := b.evt ++ [.err (e b c)], buf := [], rxState := st })
    ⟨⟨_, rfl⟩, ⟨[], List.append_nil _⟩⟩ fun _ => rfl

theorem hasEffect_append (x : Byte) : HasEffect (append x) b c :=
  .ite (fun b c => b.buf.length = c.maxFrame + 1)
    (hasEffect_raise (fun _ c => .frameTooLarge c.maxFrame) .scan)
    (hasEffect_of_block (b' := { b with buf := b.buf ++ [x] }) (.refl b) fun _ => rfl)

theorem hasEffect_bstDecode (frame : List Byte) : HasEffect (bstDecode frame) b c := by
  obtain ⟨e, he⟩ := bstDecode_emits frame
  exact (hasEffect_emit e).congr fun h => he ⟨b, h, c⟩

/-- R63: the values returned grow by one. -/
theorem hasEffect_answer (r : OpResult) : HasEffect (answer r) b c :=
  ⟨b, [r], .refl b, fun _ => rfl⟩

theorem hasEffect_transmit (p : List Byte) : HasEffect (transmit p) b c :=
  .ite (fun _ c => p.length > c.maxFrame) (hasEffect_answer (.refused (.frameTooLarge c.maxFrame)))
    ⟨{ b with txout := b.txout ++ wireFrame p }, [.ok (wireFrame p)],
      ⟨⟨[], List.append_nil _⟩, ⟨_, rfl⟩⟩, fun _ => rfl⟩

theorem hasEffect_transmitRecord (r : BstRec) : HasEffect (transmitRecord r) b c :=
  .ite (fun _ _ => bstValid r) (hasEffect_transmit _) (hasEffect_answer _)

/-! ### The rows of the three decode points -/

theorem hasEffect_frameEnd : HasEffect frameEnd b c :=
  .ite (fun b _ => b.rxState = .bodyEsc)
    (.ite (fun b _ => b.buf.length = 0) (hasEffect_raise (fun _ _ => .checksumMismatch 0 none none) _)
      (.ite (fun b _ => verifies b.buf)
        (((hasEffect_bstDecode b.buf.dropLast).comp fun _ => hasEffect_toScan).congr fun _ => rfl)
        (hasEffect_raise (fun b _ => .checksumMismatch (b.buf.length - 1) b.buf.getLast?
          (some (checksum b.buf.dropLast))) _)))
    hasEffect_id

/-- R81: each arm is its guard around one shared operation. -/
theorem hasEffect_runWireRow (i : Instr) : HasEffect (runWireRow i) b c := by
  cases i with
  | scanGotDle =>
    exact .ite (fun b _ => b.rxState = .scan) (hasEffect_setRxState .scanDle) hasEffect_id
  | frameStart =>
    exact .ite (fun b _ => b.rxState = .scanDle) hasEffect_openFrame hasEffect_id
  | scanDleOther x =>
    exact .ite (fun b _ => b.rxState = .scanDle ∧ x ≠ stx ∧ x ≠ dle)
      (hasEffect_setRxState .scan) hasEffect_id
  | bodyDle =>
    exact .ite (fun b _ => b.rxState = .body) (hasEffect_setRxState .bodyEsc) hasEffect_id
  | bodyData x =>
    exact .ite (fun b _ => b.rxState = .body ∧ x ≠ dle) (hasEffect_append x) hasEffect_id
  | escDle =>
    exact .ite (fun b _ => b.rxState = .bodyEsc)
      ((hasEffect_setRxState .body).comp fun _ => hasEffect_append dle) hasEffect_id
  | frameEnd => exact hasEffect_frameEnd
  | bodyEscStx =>
    exact .ite (fun b _ => b.rxState = .bodyEsc)
      (hasEffect_raise (fun b _ => .unescapedControlByte stx b.buf.length) .body) hasEffect_id
  | badEscape x =>
    exact .ite (fun b _ => b.rxState = .bodyEsc ∧ x ≠ stx ∧ x ≠ etx ∧ x ≠ dle)
      (hasEffect_raise (fun b _ => .unescapedControlByte x b.buf.length) .scan) hasEffect_id
  | _ => exact hasEffect_id

/-- R89: a raw frame's row appends its one event. -/
theorem hasEffect_runFrameRow (i : Instr) : HasEffect (runFrameRow i) b c := by
  cases i with
  | bst93 | bst94 | bst95 | bstD0 | bstUnknown => exact hasEffect_emit _
  | _ => exact hasEffect_id

theorem hasEffect_feed (x : Byte) : HasEffect (feed x) b c :=
  (hasEffect_runWireRow (decodeWire b.rxState x)).congr fun _ => rfl

theorem hasEffect_feedChunk (xs : List Byte) : HasEffect (feedChunk xs) b c := by
  induction xs generalizing b with
  | nil => exact hasEffect_id
  | cons x xs ih => exact (hasEffect_feed x).comp fun _ => ih

end

/-! ### From the rows to `exec` -/

theorem exec_eq_runWireRow {i : Instr} {st : RxState} (hp : pointOf i = .wire st) (s : State) :
    exec i s = .next (runWireRow i s) := by
  cases i <;> cases hp <;> rfl

theorem exec_eq_runFrameRow {i : Instr} (hp : pointOf i = .frame) (s : State) :
    exec i s = .next (runFrameRow i s) := by
  cases i <;> cases hp <;> rfl

/-- R63: the host operations are five. -/
theorem hostOp_cases {i : Instr} (hp : pointOf i = .hostOp) :
    i = .reset ∨ (∃ x, i = .feed x) ∨ (∃ xs, i = .feedChunk xs) ∨ (∃ p, i = .encodeFrame p) ∨
      ∃ r, i = .encodeBst r := by
  cases i <;> simp [pointOf] at hp ⊢

/-- R122, R27: every instruction answers a next state, by an effect on the block. -/
theorem exec_hasEffect (i : Instr) :
    ∃ f, (∀ s, exec i s = .next (f s)) ∧ ∀ b c, HasEffect f b c := by
  cases hp : pointOf i with
  | wire st => exact ⟨_, exec_eq_runWireRow hp, fun _ _ => hasEffect_runWireRow i⟩
  | frame => exact ⟨_, exec_eq_runFrameRow hp, fun _ _ => hasEffect_runFrameRow i⟩
  | hostOp =>
    obtain rfl | ⟨x, rfl⟩ | ⟨xs, rfl⟩ | ⟨p, rfl⟩ | ⟨r, rfl⟩ := hostOp_cases hp
    · exact ⟨_, fun _ => rfl, fun _ _ => hasEffect_toScan⟩
    · exact ⟨_, fun _ => rfl, fun _ _ => hasEffect_feed x⟩
    · exact ⟨_, fun _ => rfl, fun _ _ => hasEffect_feedChunk xs⟩
    · exact ⟨_, fun _ => rfl, fun _ _ => hasEffect_transmit p⟩
    · exact ⟨_, fun _ => rfl, fun _ _ => hasEffect_transmitRecord r⟩

/-- Settles O60: two states with one block have one effect. -/
theorem blockKeepsNothingElse : Obligations.BlockKeepsNothingElse := by
  intro i s t hblock hcfg
  obtain ⟨f, hexec, heff⟩ := exec_hasEffect i
  obtain ⟨b, rs, -, hf⟩ := heff s.toBlock s.cfg
  have hs := hf s.toHostSide
  have ht := hf t.toHostSide
  rw [hblock, hcfg] at ht
  exact ⟨b, rs, by rw [hexec, ← hs], by rw [hexec, ← ht]⟩

/-- Settles O44: fetching takes one operation, and the effect of what it decodes to extends the
streams. -/
theorem streamsOnlyGrow : Obligations.StreamsOnlyGrow := by
  intro s s' hstep
  obtain ⟨hops, hnone⟩ | ⟨op, rest, i, hops, -, hrun⟩ | ⟨_, _, _, -, -, hrefused⟩ := step_cases s
  · obtain rfl := Host.Outcome.next.inj (hnone.symm.trans hstep)
    exact ⟨⟨[], by simp⟩, ⟨[], by simp⟩, ⟨[], by simp⟩, rfl, by simp [hops]⟩
  · obtain ⟨f, hexec, heff⟩ := exec_hasEffect i
    obtain ⟨b, rs, ⟨⟨es, hevt⟩, ⟨ws, htxout⟩⟩, hf⟩ := heff s.toBlock s.cfg
    have hnext : s' = f { s with ops := rest } :=
      Host.Outcome.next.inj (hstep.symm.trans (hrun.trans (hexec _)))
    obtain rfl := hnext.trans (hf ⟨rest, s.results⟩)
    exact ⟨⟨es, hevt.symm⟩, ⟨ws, htxout.symm⟩, ⟨rs, rfl⟩, rfl, by simp [hops]⟩
  · simp [hrefused] at hstep

end Sys2Proof.Proofs
end

section
/-! The machine's invariant (spec/10_state.md R17, R18, R21, R22, R24 to R26,
spec/91_errors.md R127, R129): each thing an operation can do keeps it, hence every step. -/

namespace Sys2Proof.Proofs
open Sys2Proof Sys2Proof.Machine

/-! ### The message decoder's events are those of `EventOk` -/

theorem eq_seven_bytes_then_drop {l : List Byte} (h : 7 ≤ l.length) :
    l = l[0] :: l[1] :: l[2] :: l[3] :: l[4] :: l[5] :: l[6] :: l.drop 7 := by
  simp only [List.cons_getElem_drop_succ, List.drop_zero]

/-- R48: the header takes seven bytes after the identifier, and the rest is the data. -/
theorem ngtLayout_cases (tail : List Byte) :
    (tail.length < 7 ∧ ngtLayout tail = none) ∨
      ∃ y, ngtLayout tail = some y ∧ tail.length = y.data.length + 7 := by
  fun_cases ngtLayout tail with
  | case1 => exact .inr ⟨_, rfl, rfl⟩
  | case2 =>
    rename_i hshort
    refine .inl ⟨Nat.lt_of_not_le fun hlen => ?_, rfl⟩
    exact hshort _ _ _ _ _ _ _ _ (eq_seven_bytes_then_drop hlen)

/-- R51: the header takes seven bytes after the identifier, and the rest is the data. -/
theorem canLayout_cases (tail : List Byte) :
    (tail.length < 7 ∧ canLayout tail = none) ∨
      ∃ y, canLayout tail = some y ∧ tail.length = y.data.length + 7 := by
  fun_cases canLayout tail with
  | case1 => exact .inr ⟨_, rfl, rfl⟩
  | case2 =>
    rename_i hshort
    refine .inl ⟨Nat.lt_of_not_le fun hlen => ?_, rfl⟩
    exact hshort _ _ _ _ _ _ _ _ (eq_seven_bytes_then_drop hlen)

/-- R55: the header takes twelve bytes after the identifier, and the rest is the data. -/
theorem n2kLayout_cases (tail : List Byte) :
    (tail.length < 12 ∧ n2kLayout tail = none) ∨
      ∃ y, n2kLayout tail = some y ∧ tail.length = y.data.length + 12 := by
  fun_cases n2kLayout tail with
  | case1 => exact .inr ⟨_, rfl, rfl⟩
  | case2 =>
    rename_i hshort
    refine .inl ⟨Nat.lt_of_not_le fun hlen => ?_, rfl⟩
    exact hshort tail[0] tail[1] tail[2] tail[3] tail[4] tail[5] tail[6] tail[7] tail[8] tail[9]
      tail[10] tail[11] (tail.drop 12)
      (by simp only [List.cons_getElem_drop_succ, List.drop_zero])

theorem eventOk_msgEvent (c : Config) {r : BstRec} (hr : r.data.length ≤ maxData r) :
    EventOk c (msgEvent r) :=
  ⟨rfl, rfl, (bstValid_iff r).2 hr⟩

/-- R92 to R94: the check of L, a byte, bounds the data of a record that is accepted. -/
theorem eventOk_ngtEvent (c : Config) {tag : Byte} (htag : isBstId tag = true)
    {pack : Bst93Rec → BstRec} (hdata : ∀ r, (pack r).data = r.data)
    (hmax : ∀ r, maxData (pack r) = 249) (tail : List Byte) :
    EventOk c (ngtEvent tag pack tail) := by
  obtain ⟨hlen, hy⟩ | ⟨y, hy, hlen⟩ := ngtLayout_cases tail
  · simp only [ngtEvent, hy]
    exact ⟨htag, Nat.succ_lt_succ hlen⟩
  · simp only [ngtEvent, hy]
    split_ifs with hl hdl
    · exact ⟨htag, hl⟩
    · exact ⟨htag, hdl⟩
    · have hbyte := y.l.isLt
      refine eventOk_msgEvent c ?_
      rw [hdata, hmax]
      simp only [ngtRecord]
      omega

/-- R97 to R99: the data of an accepted record is bounded by its own check. -/
theorem eventOk_canEvent (c : Config) (tail : List Byte) : EventOk c (canEvent tail) := by
  obtain ⟨hlen, hy⟩ | ⟨y, hy, hlen⟩ := canLayout_cases tail
  · simp only [canEvent, hy]
    exact ⟨rfl, Nat.succ_lt_succ hlen⟩
  · simp only [canEvent, hy]
    split_ifs with hl hdata
    · exact ⟨rfl, hl⟩
    · exact ⟨rfl, hdata⟩
    · refine eventOk_msgEvent c ?_
      simp only [BstRec.data, canRecord, maxData]
      omega

/-- R101 to R103: LL is bounded before it is compared with the data. -/
theorem eventOk_n2kEvent (c : Config) (tail : List Byte) : EventOk c (n2kEvent tail) := by
  obtain ⟨hlen, hy⟩ | ⟨y, hy, hlen⟩ := n2kLayout_cases tail
  · simp only [n2kEvent, hy]
    exact ⟨rfl, Nat.succ_lt_succ hlen⟩
  · simp only [n2kEvent, hy]
    split_ifs with hdata hll
    · exact ⟨rfl, hdata⟩
    · exact ⟨rfl, hll⟩
    · refine eventOk_msgEvent c ?_
      simp only [BstRec.data, n2kRecord, maxData]
      omega

/-- R47, R89: the row of a raw frame that has a first byte. -/
theorem decodeFrame_cons_cases (id : Byte) (tail : List Byte) :
    decodeFrame (id :: tail) = some (.bst93 tail) ∨ decodeFrame (id :: tail) = some (.bst94 tail) ∨
    decodeFrame (id :: tail) = some (.bst95 tail) ∨ decodeFrame (id :: tail) = some (.bstD0 tail) ∨
    (isBstId id = false ∧ decodeFrame (id :: tail) = some (.bstUnknown id tail)) := by
  simp only [decodeFrame]
  split_ifs with h93 h94 h95 hD0
  · exact .inl rfl
  · exact .inr (.inl rfl)
  · exact .inr (.inr (.inl rfl))
  · exact .inr (.inr (.inr (.inl rfl)))
  · exact .inr (.inr (.inr (.inr ⟨by simp [isBstId, h93, h94, h95, hD0], rfl⟩)))

/-- R89 to R91: the one event of a raw frame that fits. -/
theorem bstDecode_emits_eventOk (c : Config) {frame : List Byte}
    (hlen : frame.length ≤ c.maxFrame) :
    ∃ e, EventOk c e ∧ ∀ s, bstDecode frame s = emit e s := by
  cases frame with
  | nil => exact ⟨emptyFrameEvent, ⟨⟨rfl, rfl⟩, Nat.zero_lt_one⟩, fun _ => rfl⟩
  | cons id tail =>
    obtain hrow | hrow | hrow | hrow | ⟨hid, hrow⟩ := decodeFrame_cons_cases id tail
    · exact ⟨ngtEvent idBst93 .bst93 tail,
        eventOk_ngtEvent c rfl (fun _ => rfl) (fun _ => rfl) tail,
        fun _ => by simp only [bstDecode, hrow, runFrameRow, bst93]⟩
    · exact ⟨ngtEvent idBst94 .bst94 tail,
        eventOk_ngtEvent c rfl (fun _ => rfl) (fun _ => rfl) tail,
        fun _ => by simp only [bstDecode, hrow, runFrameRow, bst94]⟩
    · exact ⟨_, eventOk_canEvent c tail, fun _ => by simp only [bstDecode, hrow, runFrameRow, bst95]⟩
    · exact ⟨_, eventOk_n2kEvent c tail, fun _ => by simp only [bstDecode, hrow, runFrameRow, bstD0]⟩
    · exact ⟨unknownEvent id tail, ⟨hid, Nat.succ_pos _, hlen⟩,
        fun _ => by simp only [bstDecode, hrow, runFrameRow, bstUnknown]⟩

/-! ### The frame decoder's errors are those of `ErrorOk` -/

theorem errorOk_frameTooLarge (c : Config) : ErrorOk c (.frameTooLarge c.maxFrame) := rfl

theorem errorOk_unescapedControlByte {c : Config} {b : Byte} {n : Nat} (hdle : b ≠ dle)
    (hetx : b ≠ etx) (hn : n ≤ c.maxFrame + 1) : ErrorOk c (.unescapedControlByte b n) :=
  ⟨hdle, hetx, hn⟩

/-- R76: a frame without a checksum byte. -/
theorem errorOk_noChecksum (c : Config) : ErrorOk c (.checksumMismatch 0 none none) :=
  .inl ⟨rfl, rfl, rfl⟩

/-- R44: a byte sum is 0 just where the last byte is the checksum of those before it. -/
theorem sum8_append_singleton_eq_zero (l : List Byte) (x : Byte) :
    sum8 (l ++ [x]) = 0#8 ↔ x = checksum l := by
  rw [sum8_append, sum8_cons, sum8_nil, checksum]
  bv_omega

/-- R76, R127: a mismatch names two different bytes. -/
theorem errorOk_checksumMismatch {c : Config} {buf : List Byte} (hne : buf ≠ [])
    (hlen : buf.length ≤ c.maxFrame + 1) (hsum : sum8 buf ≠ 0#8) :
    ErrorOk c (.checksumMismatch (buf.length - 1) buf.getLast? (some (checksum buf.dropLast))) := by
  refine .inr ⟨buf.getLast hne, checksum buf.dropLast, List.getLast?_eq_some_getLast hne, rfl,
    fun heq => hsum ?_, Nat.sub_le_of_le_add hlen⟩
  rw [← List.dropLast_append_getLast hne]
  exact (sum8_append_singleton_eq_zero _ _).2 heq

/-! ### What the shared operations keep -/

section
variable {s : State}

/-- R18: in SCAN and SCAN_DLE the buffer has to be empty. -/
theorem inv_setRxState (hs : Inv s) {st : RxState}
    (hempty : st = .scan ∨ st = .scanDle → s.buf = []) : Inv { s with rxState := st } := by
  obtain ⟨⟨hlen, -⟩, hevt, htx⟩ := hs
  exact ⟨⟨hlen, hempty⟩, hevt, htx⟩

theorem inv_openFrame (hs : Inv s) : Inv (openFrame s) := by
  obtain ⟨-, hevt, htx⟩ := hs
  exact ⟨⟨Nat.zero_le _, fun _ => rfl⟩, hevt, htx⟩

theorem inv_toScan (hs : Inv s) : Inv (toScan s) := by
  obtain ⟨-, hevt, htx⟩ := hs
  exact ⟨⟨Nat.zero_le _, fun _ => rfl⟩, hevt, htx⟩

theorem inv_emit (hs : Inv s) {e : Event} (he : EventOk s.cfg e) : Inv (emit e s) := by
  obtain ⟨hrx, hevt, htx⟩ := hs
  refine ⟨hrx, fun e' hmem => ?_, htx⟩
  obtain hold | rfl := by simpa using hmem
  · exact hevt e' hold
  · exact he

/-- R125, R132: an error is emitted and the frame is discarded. -/
theorem inv_raise (hs : Inv s) {e : CodecError} (he : ErrorOk s.cfg e) (st : RxState) :
    Inv (raise e st s) := by
  obtain ⟨-, hevt, htx⟩ := inv_emit hs (e := .err e) he
  exact ⟨⟨Nat.zero_le _, fun _ => rfl⟩, hevt, htx⟩

/-- R74, R78: in BODY the buffer takes one more byte, or overflows. -/
theorem inv_append (hs : Inv s) (hst : s.rxState = .body) (x : Byte) : Inv (append x s) := by
  obtain ⟨-, happ⟩ | ⟨hroom, happ⟩ := append_cases x s
  · rw [happ]
    exact inv_raise hs (errorOk_frameTooLarge _) .scan
  · obtain ⟨⟨hlen, -⟩, hevt, htx⟩ := hs
    rw [happ]
    refine ⟨⟨?_, ?_⟩, hevt, htx⟩
    · simp only [List.length_append, List.length_singleton]
      omega
    · simp [hst]

theorem okBytes_append (l m : List OpResult) : okBytes (l ++ m) = okBytes l ++ okBytes m := by
  induction l with
  | nil => rfl
  | cons r l ih => cases r <;> simp [okBytes, ih]

/-- R21: the value returned and the bytes sent go together. -/
theorem inv_answer (hs : Inv s) {r : OpResult} (hr : ResultOk s.cfg r) :
    Inv (answer r { s with txout := s.txout ++ okBytes [r] }) := by
  obtain ⟨hrx, hevt, htxout, hresults⟩ := hs
  refine ⟨hrx, hevt, ?_, fun r' hmem => ?_⟩
  · simp [okBytes_append, htxout]
  · obtain hold | rfl := by simpa using hmem
    · exact hresults r' hold
    · exact hr

theorem inv_answer_refused (hs : Inv s) {e : CodecError} (he : ResultOk s.cfg (.refused e)) :
    Inv (answer (.refused e) s) := by
  simpa [okBytes] using inv_answer hs he

theorem inv_transmit (hs : Inv s) (p : List Byte) : Inv (transmit p s) := by
  obtain ⟨-, hrun⟩ | ⟨hfits, hrun⟩ := transmit_cases p s
  · rw [hrun]
    exact inv_answer_refused hs (.inl rfl)
  · rw [hrun]
    simpa [okBytes] using inv_answer hs (r := .ok (wireFrame p)) ⟨p, hfits, rfl⟩

theorem inv_transmitRecord (hs : Inv s) (r : BstRec) : Inv (transmitRecord r s) := by
  obtain ⟨hinvalid, hrun⟩ | ⟨-, hrun⟩ := transmitRecord_cases r s
  · rw [hrun]
    exact inv_answer_refused hs (.inr ⟨r, hinvalid, rfl⟩)
  · rw [hrun]
    exact inv_transmit hs (bstLayout r)

/-! ### What the host operations keep -/

/-- R76: in each of its three outcomes the frame's end leaves an empty buffer in SCAN. -/
theorem inv_frameEnd (hs : Inv s) (hst : s.rxState = .bodyEsc) : Inv (frameEnd s) := by
  obtain ⟨hlen, -⟩ := hs.1
  obtain ⟨-, hend⟩ | ⟨-, -, hend⟩ | ⟨hne, hsum, hend⟩ := frameEnd_cases hst
  · rw [hend]
    exact inv_raise hs (errorOk_noChecksum _) .scan
  · have hfits : s.buf.dropLast.length ≤ s.cfg.maxFrame := by
      rw [List.length_dropLast]
      omega
    obtain ⟨e, he, hdecode⟩ := bstDecode_emits_eventOk s.cfg hfits
    rw [hend, hdecode]
    exact inv_toScan (inv_emit hs he)
  · rw [hend]
    exact inv_raise hs (errorOk_checksumMismatch hne hlen hsum) .scan

/-- R81, R117: one byte, by the state of the decoder. -/
theorem inv_feed (hs : Inv s) (b : Byte) : Inv (feed b s) := by
  obtain ⟨hlen, hempty⟩ := hs.1
  cases hst : s.rxState with
  | scan =>
    rw [feed_scan hst]
    split_ifs
    · exact inv_setRxState hs fun _ => hempty (.inl hst)
    · exact hs
  | scanDle =>
    rw [feed_scanDle hst]
    split_ifs
    · exact inv_openFrame hs
    · exact hs
    · exact inv_setRxState hs fun _ => hempty (.inr hst)
  | body =>
    rw [feed_body hst]
    split_ifs
    · exact inv_setRxState hs (by simp)
    · exact inv_append hs hst b
  | bodyEsc =>
    rw [feed_bodyEsc hst]
    split_ifs with hdle hetx
    · exact inv_append (inv_setRxState hs (by simp)) rfl dle
    · exact inv_frameEnd hs hst
    · exact inv_raise hs (errorOk_unescapedControlByte (by simp) (by simp) hlen) .body
    · exact inv_raise hs (errorOk_unescapedControlByte hdle hetx hlen) .scan

theorem inv_feedChunk (hs : Inv s) (bs : List Byte) : Inv (feedChunk bs s) := by
  induction bs generalizing s with
  | nil => exact hs
  | cons b bs ih => exact ih (inv_feed hs b)

end

/-! ### Every step -/

/-- R63: what decodes at the host's decode point is a host operation. -/
theorem pointOf_of_decode_hostOp {op : List Byte} {i : Instr} (hdec : decode .hostOp op = .ok i) :
    pointOf i = .hostOp := by
  cases op with
  | nil => cases hdec
  | cons code operands =>
    simp only [decode, decodeHostOp] at hdec
    split_ifs at hdec with hreset hfeed hchunk hframe hbst
    · split at hdec <;> cases hdec
      rfl
    · split at hdec <;> cases hdec
      rfl
    · cases hdec
      rfl
    · cases hdec
      rfl
    · split at hdec
      · cases hdec
      · split at hdec <;> cases hdec
        rfl

/-- A raw-frame row is left out: alone, its operand may be longer than a frame (log 10). -/
theorem inv_exec_of_hostOp {i : Instr} (hi : pointOf i = .hostOp) {s s' : State} (hs : Inv s)
    (hexec : exec i s = .next s') : Inv s' := by
  obtain rfl | ⟨x, rfl⟩ | ⟨xs, rfl⟩ | ⟨p, rfl⟩ | ⟨r, rfl⟩ := hostOp_cases hi <;>
    obtain rfl := Host.Outcome.next.inj hexec
  · exact inv_toScan hs
  · exact inv_feed hs x
  · exact inv_feedChunk hs xs
  · exact inv_transmit hs p
  · exact inv_transmitRecord hs r

/-- Settles O42: the operation that a step runs is a host operation, run in a state that differs
from `s` only in the operations waiting, of which the invariant does not speak. -/
theorem everyStepKeepsTheInvariant : Obligations.EveryStepKeepsTheInvariant := by
  intro s s' hs hstep
  obtain ⟨-, hnone⟩ | ⟨op, rest, i, -, hdec, hrun⟩ | ⟨_, _, _, -, -, hrefused⟩ := step_cases s
  · obtain rfl := Host.Outcome.next.inj (hnone.symm.trans hstep)
    exact hs
  · have hissued : Inv { s with ops := rest } := hs
    exact inv_exec_of_hostOp (pointOf_of_decode_hostOp hdec) hissued (hrun.symm.trans hstep)
  · simp [hrefused] at hstep

end Sys2Proof.Proofs
end

section
/-! The two paths of the block (spec/20_memory.md R37). An operation of one path commutes with
exchanging what the other path owns, and from that one equation follow both its frame and its
independence. Neither path reads the operations waiting, so they are exchanged with either. -/

namespace Sys2Proof.Proofs
open Sys2Proof Sys2Proof.Machine

/-- `s` with the transmit path and the host's side of `t`. -/
def withTxOf (t s : State) : State :=
  { s with txout := t.txout, ops := t.ops, results := t.results }

/-- `s` with the receive path and the waiting operations of `t`. -/
def withRxOf (t s : State) : State :=
  { s with rxState := t.rxState, buf := t.buf, evt := t.evt, ops := t.ops }

theorem eq_withTxOf {s t : State} (hcfg : s.cfg = t.cfg) (hrx : s.rxState = t.rxState)
    (hbuf : s.buf = t.buf) (hevt : s.evt = t.evt) : t = withTxOf t s := by
  simp only [withTxOf, hcfg, hrx, hbuf, hevt]

theorem eq_withRxOf {s t : State} (hcfg : s.cfg = t.cfg) (htxout : s.txout = t.txout)
    (hresults : s.results = t.results) : t = withRxOf t s := by
  simp only [withRxOf, hcfg, htxout, hresults]

/-- R37: `f` neither reads nor writes what the transmit path owns. -/
def IgnoresTx (f : State → State) : Prop := ∀ t, Function.Commute f (withTxOf t)

/-- R37: `f` neither reads nor writes what the receive path owns. -/
def IgnoresRx (f : State → State) : Prop := ∀ t, Function.Commute f (withRxOf t)

/-- A choice that `g` does not change. -/
theorem commute_ite {f₁ f₂ g : State → State} (p : State → Prop) [DecidablePred p]
    (hp : ∀ s, p (g s) ↔ p s) (h₁ : Function.Commute f₁ g) (h₂ : Function.Commute f₂ g) :
    Function.Commute (fun s => if p s then f₁ s else f₂ s) g := fun s => by
  simp only [hp, h₁ s, h₂ s, apply_ite g]

/-! ### The receive path -/

theorem ignoresTx_append (x : Byte) : IgnoresTx (append x) := fun _ =>
  commute_ite (fun s => s.buf.length = s.cfg.maxFrame + 1) (fun _ => .rfl)
    (fun _ => rfl) (fun _ => rfl)

theorem ignoresTx_bstDecode (frame : List Byte) : IgnoresTx (bstDecode frame) := by
  obtain ⟨e, he⟩ := bstDecode_emits frame
  intro t s
  rw [he, he]
  rfl

theorem ignoresTx_frameEnd : IgnoresTx frameEnd := fun t =>
  commute_ite (fun s => s.rxState = .bodyEsc) (fun _ => .rfl)
    (commute_ite (fun s => s.buf.length = 0) (fun _ => .rfl) (fun _ => rfl)
      (commute_ite (fun s => verifies s.buf) (fun _ => .rfl)
        (fun s => congrArg toScan (ignoresTx_bstDecode s.buf.dropLast t s)) (fun _ => rfl)))
    (fun _ => rfl)

/-- R81, R117: the state of the decoder and the byte choose what is done. -/
theorem ignoresTx_feed (b : Byte) : IgnoresTx (feed b) := by
  intro t s
  cases hst : s.rxState with
  | scan =>
    rw [feed_scan hst, feed_scan (s := withTxOf t s) hst]
    split_ifs <;> rfl
  | scanDle =>
    rw [feed_scanDle hst, feed_scanDle (s := withTxOf t s) hst]
    split_ifs <;> rfl
  | body =>
    rw [feed_body hst, feed_body (s := withTxOf t s) hst]
    split_ifs
    · rfl
    · exact ignoresTx_append b t s
  | bodyEsc =>
    rw [feed_bodyEsc hst, feed_bodyEsc (s := withTxOf t s) hst]
    split_ifs
    · exact ignoresTx_append dle t { s with rxState := .body }
    · exact ignoresTx_frameEnd t s
    · rfl
    · rfl

theorem ignoresTx_feedChunk (bs : List Byte) : IgnoresTx (feedChunk bs) := by
  induction bs with
  | nil => exact fun _ _ => rfl
  | cons b bs ih => exact fun t => (ih t).comp_left (ignoresTx_feed b t)

theorem exec_ignoresTx {i : Instr}
    (hi : i = .reset ∨ (∃ b, i = .feed b) ∨ ∃ bs, i = .feedChunk bs) :
    ∃ f, (∀ s, exec i s = .next (f s)) ∧ IgnoresTx f := by
  obtain rfl | ⟨b, rfl⟩ | ⟨bs, rfl⟩ := hi
  · exact ⟨toScan, fun _ => rfl, fun _ _ => rfl⟩
  · exact ⟨feed b, fun _ => rfl, ignoresTx_feed b⟩
  · exact ⟨feedChunk bs, fun _ => rfl, ignoresTx_feedChunk bs⟩

/-! ### The transmit path -/

theorem ignoresRx_transmit (p : List Byte) : IgnoresRx (transmit p) := fun _ =>
  commute_ite (fun s => p.length > s.cfg.maxFrame) (fun _ => .rfl) (fun _ => rfl) (fun _ => rfl)

theorem ignoresRx_transmitRecord (r : BstRec) : IgnoresRx (transmitRecord r) := fun t =>
  commute_ite (fun _ => bstValid r) (fun _ => .rfl) (ignoresRx_transmit (bstLayout r) t)
    (fun _ => rfl)

theorem exec_ignoresRx {i : Instr} (hi : (∃ p, i = .encodeFrame p) ∨ ∃ r, i = .encodeBst r) :
    ∃ f, (∀ s, exec i s = .next (f s)) ∧ IgnoresRx f := by
  obtain ⟨p, rfl⟩ | ⟨r, rfl⟩ := hi
  · exact ⟨transmit p, fun _ => rfl, ignoresRx_transmit p⟩
  · exact ⟨transmitRecord r, fun _ => rfl, ignoresRx_transmitRecord r⟩

/-! ### What commuting says -/

section
variable {f : State → State} {s t : State}

/-- Exchanging with the state itself: the frame. -/
theorem IgnoresTx.frame (hf : IgnoresTx f) (s : State) :
    (f s).txout = s.txout ∧ (f s).results = s.results := by
  have hself : f s = withTxOf s (f s) := hf s s
  rw [hself]
  exact ⟨rfl, rfl⟩

theorem IgnoresRx.frame (hf : IgnoresRx f) (s : State) :
    (f s).rxState = s.rxState ∧ (f s).buf = s.buf ∧ (f s).evt = s.evt := by
  have hself : f s = withRxOf s (f s) := hf s s
  rw [hself]
  exact ⟨rfl, rfl, rfl⟩

/-- Exchanging with another state: the independence. -/
theorem IgnoresTx.run_eq (hf : IgnoresTx f) (h : t = withTxOf t s) : f t = withTxOf t (f s) := by
  rw [← hf t s, ← h]

theorem IgnoresRx.run_eq (hf : IgnoresRx f) (h : t = withRxOf t s) : f t = withRxOf t (f s) := by
  rw [← hf t s, ← h]

end

/-- Settles O48: the encode operations commute with exchanging the receive path, and the receive
operations with exchanging the transmit path. -/
theorem receiveAndTransmitAreIndependent : Obligations.ReceiveAndTransmitAreIndependent := by
  constructor
  · intro i s t s' t' hi hcfg htxout hresults hs ht
    obtain ⟨f, hexec, hf⟩ := exec_ignoresRx hi
    obtain rfl := Host.Outcome.next.inj ((hexec s).symm.trans hs)
    obtain rfl := Host.Outcome.next.inj ((hexec t).symm.trans ht)
    have hrun := hf.run_eq (eq_withRxOf hcfg htxout hresults)
    rw [hrun]
    exact ⟨rfl, rfl, hf.frame s⟩
  · intro i s t s' t' hi hcfg hrx hbuf hevt hs ht
    obtain ⟨f, hexec, hf⟩ := exec_ignoresTx hi
    obtain rfl := Host.Outcome.next.inj ((hexec s).symm.trans hs)
    obtain rfl := Host.Outcome.next.inj ((hexec t).symm.trans ht)
    have hrun := hf.run_eq (eq_withTxOf hcfg hrx hbuf hevt)
    rw [hrun]
    exact ⟨rfl, rfl, rfl, hf.frame s⟩

end Sys2Proof.Proofs
end

section
/-! Decoding and encoding are inverse at the three decode points (spec/30_encoding.md R45, R47,
R63), the operand bytes of a record included, and the obligations that follow. -/

namespace Sys2Proof.Proofs
open Sys2Proof Sys2Proof.Machine

/-! ### Records as operand bytes (R24 to R26, R124) -/

theorem readNgt_ngtBytes (r : Bst93Rec) : readNgt (ngtBytes r) = some r := by
  simp [ngtBytes, readNgt, narrow_setWidth]

theorem readCan_canBytes (r : Bst95Rec) : readCan (canBytes r) = some r := by
  simp [canBytes, readCan, narrow_setWidth, le16_byteOf]

theorem readN2k_n2kBytes (r : BstD0Rec) : readN2k (n2kBytes r) = some r := by
  simp [n2kBytes, readN2k, le32_byteOf]

theorem ngtBytes_of_readNgt {bs : List Byte} {r : Bst93Rec} (hread : readNgt bs = some r) :
    ngtBytes r = bs := by
  unfold readNgt at hread
  split at hread
  · split at hread
    · next hprio hdp =>
      cases hread
      simp [ngtBytes, setWidth_of_narrow hprio, setWidth_of_narrow hdp]
    · cases hread
  · cases hread

theorem canBytes_of_readCan {bs : List Byte} {r : Bst95Rec} (hread : readCan bs = some r) :
    canBytes r = bs := by
  unfold readCan at hread
  split at hread
  · split at hread
    · next htrc hdp hprio hdir =>
      cases hread
      simp [canBytes, byteOf_le16_0, byteOf_le16_1, setWidth_of_narrow htrc,
        setWidth_of_narrow hdp, setWidth_of_narrow hprio, setWidth_of_narrow hdir]
    · cases hread
  · cases hread

theorem n2kBytes_of_readN2k {bs : List Byte} {r : BstD0Rec} (hread : readN2k bs = some r) :
    n2kBytes r = bs := by
  unfold readN2k at hread
  split at hread
  · cases hread
    simp [n2kBytes, byteOf_le32_0, byteOf_le32_1, byteOf_le32_2, byteOf_le32_3]
  · cases hread

theorem readRec_tag_bytes (r : BstRec) : readRec r.tag r.bytes = some r := by
  cases r with
  | bst93 r => simp [readRec, BstRec.tag, BstRec.bytes, readNgt_ngtBytes]
  | bst94 r => simp [readRec, BstRec.tag, BstRec.bytes, readNgt_ngtBytes]
  | bst95 r => simp [readRec, BstRec.tag, BstRec.bytes, readCan_canBytes]
  | bstD0 r => simp [readRec, BstRec.tag, BstRec.bytes, readN2k_n2kBytes]

theorem tag_bytes_of_readRec {tag : Byte} {bs : List Byte} {r : BstRec}
    (hread : readRec tag bs = some r) : r.tag = tag ∧ r.bytes = bs := by
  simp only [readRec] at hread
  split_ifs at hread with h93 h94 h95 hD0 <;>
    obtain ⟨x, hx, rfl⟩ := Option.map_eq_some_iff.mp hread
  · exact ⟨h93.symm, ngtBytes_of_readNgt hx⟩
  · exact ⟨h94.symm, ngtBytes_of_readNgt hx⟩
  · exact ⟨h95.symm, canBytes_of_readCan hx⟩
  · exact ⟨hD0.symm, n2kBytes_of_readN2k hx⟩

/-! ### The operand bytes that a row excludes (R67, R71, R73, R79, R91) -/

theorem wellFormed_scanOther_iff {b : Byte} : (Instr.scanOther b).WellFormed ↔ b ≠ dle := by
  simp only [Instr.WellFormed, wellFormed, decide_eq_true_eq]

theorem wellFormed_scanDleOther_iff {b : Byte} :
    (Instr.scanDleOther b).WellFormed ↔ b ≠ stx ∧ b ≠ dle := by
  simp only [Instr.WellFormed, wellFormed, Bool.and_eq_true, decide_eq_true_eq]

theorem wellFormed_bodyData_iff {b : Byte} : (Instr.bodyData b).WellFormed ↔ b ≠ dle := by
  simp only [Instr.WellFormed, wellFormed, decide_eq_true_eq]

theorem wellFormed_badEscape_iff {b : Byte} :
    (Instr.badEscape b).WellFormed ↔ b ≠ stx ∧ b ≠ etx ∧ b ≠ dle := by
  simp only [Instr.WellFormed, wellFormed, Bool.and_eq_true, decide_eq_true_eq, and_assoc]

theorem wellFormed_bstUnknown_iff {id : Byte} {tail : List Byte} :
    (Instr.bstUnknown id tail).WellFormed ↔
      id ≠ idBst93 ∧ id ≠ idBst94 ∧ id ≠ idBst95 ∧ id ≠ idBstD0 := by
  simp [Instr.WellFormed, wellFormed, isBstId, and_assoc]

/-! ### The decoders at an encoding -/

/-- `i` is an instruction of the decode point `p`, and `bs` are its bytes there. -/
def EncodesAt (p : DecodePoint) (bs : List Byte) (i : Instr) : Prop :=
  i.WellFormed ∧ pointOf i = p ∧ encode i = bs

/-- R45: a row that takes "any other byte" is selected because its operand is none of the bytes
that the other rows of its state take. -/
theorem decode_encode_of_wire {i : Instr} {st : RxState} (hwf : i.WellFormed)
    (hp : pointOf i = .wire st) : decode (.wire st) (encode i) = .ok i := by
  cases i <;> cases hp
  case scanGotDle | frameStart | scanDleDle | bodyDle | escDle | frameEnd | bodyEscStx => rfl
  case scanOther b =>
    simp [decode, encode, decodeWire, wellFormed_scanOther_iff.mp hwf]
  case scanDleOther b =>
    simp [decode, encode, decodeWire, wellFormed_scanDleOther_iff.mp hwf]
  case bodyData b =>
    simp [decode, encode, decodeWire, wellFormed_bodyData_iff.mp hwf]
  case badEscape b =>
    simp [decode, encode, decodeWire, wellFormed_badEscape_iff.mp hwf]

theorem decode_encode_of_frame {i : Instr} (hwf : i.WellFormed) (hp : pointOf i = .frame) :
    decode .frame (encode i) = .ok i := by
  cases i <;> cases hp
  case bst93 | bst94 | bst95 | bstD0 => rfl
  case bstUnknown id tail =>
    simp [decode, encode, decodeFrame, wellFormed_bstUnknown_iff.mp hwf]

theorem decode_encode_of_hostOp {i : Instr} (hp : pointOf i = .hostOp) :
    decode .hostOp (encode i) = .ok i := by
  obtain rfl | ⟨x, rfl⟩ | ⟨xs, rfl⟩ | ⟨p, rfl⟩ | ⟨r, rfl⟩ := hostOp_cases hp
  · rfl
  · rfl
  · rfl
  · rfl
  · simp [decode, encode, decodeHostOp, readRec_tag_bytes]

/-! ### What decodes -/

theorem encodesAt_decodeWire (st : RxState) (b : Byte) :
    EncodesAt (.wire st) [b] (decodeWire st b) := by
  cases st with
  | scan =>
    simp only [decodeWire]
    split_ifs with hdle
    · exact ⟨rfl, rfl, by rw [hdle]; rfl⟩
    · exact ⟨wellFormed_scanOther_iff.mpr hdle, rfl, rfl⟩
  | scanDle =>
    simp only [decodeWire]
    split_ifs with hstx hdle
    · exact ⟨rfl, rfl, by rw [hstx]; rfl⟩
    · exact ⟨rfl, rfl, by rw [hdle]; rfl⟩
    · exact ⟨wellFormed_scanDleOther_iff.mpr ⟨hstx, hdle⟩, rfl, rfl⟩
  | body =>
    simp only [decodeWire]
    split_ifs with hdle
    · exact ⟨rfl, rfl, by rw [hdle]; rfl⟩
    · exact ⟨wellFormed_bodyData_iff.mpr hdle, rfl, rfl⟩
  | bodyEsc =>
    simp only [decodeWire]
    split_ifs with hdle hetx hstx
    · exact ⟨rfl, rfl, by rw [hdle]; rfl⟩
    · exact ⟨rfl, rfl, by rw [hetx]; rfl⟩
    · exact ⟨rfl, rfl, by rw [hstx]; rfl⟩
    · exact ⟨wellFormed_badEscape_iff.mpr ⟨hstx, hetx, hdle⟩, rfl, rfl⟩

theorem encodesAt_of_decodeFrame {bs : List Byte} {i : Instr} (hdec : decodeFrame bs = some i) :
    EncodesAt .frame bs i := by
  cases bs with
  | nil => cases hdec
  | cons id tail =>
    obtain rfl := Option.some.inj hdec
    split_ifs with h93 h94 h95 hD0
    · exact ⟨rfl, rfl, by rw [h93]; rfl⟩
    · exact ⟨rfl, rfl, by rw [h94]; rfl⟩
    · exact ⟨rfl, rfl, by rw [h95]; rfl⟩
    · exact ⟨rfl, rfl, by rw [hD0]; rfl⟩
    · exact ⟨wellFormed_bstUnknown_iff.mpr ⟨h93, h94, h95, hD0⟩, rfl, rfl⟩

/-- R63: no host operation has an operand byte that its row excludes. -/
theorem wellFormed_of_hostOp {i : Instr} (hp : pointOf i = .hostOp) : i.WellFormed := by
  obtain rfl | ⟨_, rfl⟩ | ⟨_, rfl⟩ | ⟨_, rfl⟩ | ⟨_, rfl⟩ := hostOp_cases hp <;> rfl

/-- R124: surplus and over-wide operands are refused, so what is accepted is read whole. -/
theorem encode_of_decodeHostOp {bs : List Byte} {i : Instr} (hdec : decodeHostOp bs = .ok i) :
    encode i = bs := by
  cases bs with
  | nil => cases hdec
  | cons code operands =>
    simp only [decodeHostOp] at hdec
    split_ifs at hdec with hreset hfeed hchunk hframe hbst
    · split at hdec <;> cases hdec
      rw [hreset]; rfl
    · split at hdec <;> cases hdec
      rw [hfeed]; rfl
    · cases hdec
      rw [hchunk]; rfl
    · cases hdec
      rw [hframe]; rfl
    · split at hdec
      · cases hdec
      · split at hdec <;> cases hdec
        next hread =>
          obtain ⟨htag, hbytes⟩ := tag_bytes_of_readRec hread
          simp only [encode, htag, hbytes, hbst]

/-! ### Both directions -/

/-- R45, R47, R63: at each decode point, decoding and encoding are one relation. -/
theorem decode_eq_ok_iff {p : DecodePoint} {bs : List Byte} {i : Instr} :
    decode p bs = .ok i ↔ EncodesAt p bs i := by
  constructor
  · intro hdec
    cases p with
    | hostOp =>
      have hp := pointOf_of_decode_hostOp hdec
      exact ⟨wellFormed_of_hostOp hp, hp, encode_of_decodeHostOp hdec⟩
    | wire st =>
      match bs, hdec with
      | [b], hdec => exact Except.ok.inj hdec ▸ encodesAt_decodeWire st b
    | frame =>
      simp only [decode] at hdec
      split at hdec <;> cases hdec
      exact encodesAt_of_decodeFrame (by assumption)
  · rintro ⟨hwf, rfl, rfl⟩
    cases hp : pointOf i with
    | hostOp => exact decode_encode_of_hostOp hp
    | wire st => exact decode_encode_of_wire hwf hp
    | frame => exact decode_encode_of_frame hwf hp

/-- Settles O39: the encoding of `i` encodes it at its own decode point. -/
theorem decodeOfEncodeIsTheInstruction : Obligations.DecodeOfEncodeIsTheInstruction :=
  fun _ hwf => decode_eq_ok_iff.mpr ⟨hwf, rfl, rfl⟩

/-- Settles O40: what decodes is what is encoded there. -/
theorem decodedBytesReencode : Obligations.DecodedBytesReencode :=
  fun _ _ _ hdec => decode_eq_ok_iff.mp hdec

/-- Settles O36: the fetched bytes decode to the operation they encode. -/
theorem stepRunsTheEncodedOperation : Obligations.StepRunsTheEncodedOperation :=
  fun _ _ _ hp => step_of_decode_ok rfl (decode_encode_of_hostOp hp)

/-- Settles O41: seven words are encodings of well-formed instructions; the code 05 has no row. -/
theorem tableWordsDecode : Obligations.TableWordsDecode :=
  have decodes := decodeOfEncodeIsTheInstruction
  ⟨decodes .scanGotDle rfl, decodes .frameStart rfl, decodes (.bodyData 0x02#8) rfl,
    decodes .frameEnd rfl, decodes (.bst93 [0x00#8]) rfl, decodes (.bstUnknown 0x00#8 []) rfl,
    decodes (.feed 0x10#8) rfl, rfl⟩

end Sys2Proof.Proofs
end

section
/-! The frame's checksum and stuffing (spec/30_encoding.md R42 to R44): what a byte sum is, and that
neither stuffing nor framing loses a byte. -/

namespace Sys2Proof.Proofs
open Sys2Proof Sys2Proof.Machine

/-- R10: `sum8` adds modulo 256. -/
theorem sum8_toNat (l : List Byte) : (sum8 l).toNat = (l.map BitVec.toNat).sum % 256 := by
  induction l with
  | nil => rfl
  | cons b l ih => simp [BitVec.toNat_add, ih]

/-- Settles O29: the checksum solves the one equation in the last byte, and no other byte does. -/
theorem checksumIsTheOneByteThatVerifies : Obligations.ChecksumIsTheOneByteThatVerifies :=
  fun p c => ⟨sum8_append_singleton_eq_zero p c, sum8_toNat p⟩

/-- R43: a stuffed list starts with the list's own first byte. -/
theorem head?_stuff (l : List Byte) : (stuff l).head? = l.head? := by
  cases l with
  | nil => rfl
  | cons b l => by_cases hb : b = dle <;> simp [stuff_cons, hb]

theorem head?_eq_of_stuff_eq {l m : List Byte} (h : stuff l = stuff m) : l.head? = m.head? := by
  rw [← head?_stuff l, ← head?_stuff m, h]

theorem stuff_cons_inj {b : Byte} {l m : List Byte} (h : stuff (b :: l) = stuff (b :: m)) :
    stuff l = stuff m := by
  by_cases hb : b = dle <;> simpa [stuff_cons, hb] using h

/-- R43: the first bytes agree, and whatever they are stuffed to comes off both lists. -/
theorem stuff_injective : Function.Injective stuff := by
  intro l m h
  induction l generalizing m with
  | nil => exact (List.head?_eq_none_iff.mp (head?_eq_of_stuff_eq h).symm).symm
  | cons b l ih =>
    cases m with
    | nil => cases head?_eq_of_stuff_eq h
    | cons c m =>
      obtain rfl : b = c := Option.some.inj (head?_eq_of_stuff_eq h)
      rw [ih (stuff_cons_inj h)]

/-- Settles O31: the delimiters, the stuffing and the checksum byte come off in turn. -/
theorem encodedFrameDeterminesThePayload : Obligations.EncodedFrameDeterminesThePayload := by
  intro p q h
  have hstuff : stuff (p ++ [checksum p]) = stuff (q ++ [checksum q]) :=
    List.append_cancel_left (List.append_cancel_right h)
  exact (List.append_inj' (stuff_injective hstuff) rfl).1

end Sys2Proof.Proofs
end

section
/-! The values derived from a record's fields (spec/30_encoding.md R54, R55, R57, R59, R60). -/

namespace Sys2Proof.Proofs
open Sys2Proof Sys2Proof.Machine

/-- R59: the three fields fit side by side in 18 bits. -/
theorem pgn_toNat (dp : BitVec 2) (pf ps : Byte) :
    (pgn dp pf ps).toNat =
      dp.toNat * 65536 + pf.toNat * 256 + (if pf.toNat < 240 then 0 else ps.toNat) := by
  have hdp := dp.isLt
  have hpf := pf.isLt
  have hps := ps.isLt
  simp only [pgn, BitVec.toNat_add, BitVec.toNat_mul, BitVec.toNat_setWidth, BitVec.toNat_ofNat]
  split <;> simp only [BitVec.toNat_setWidth, BitVec.toNat_ofNat] <;> omega

/-- Settles O24: below 240 the number names no `ps`. -/
theorem pgnIsReconstructed : Obligations.PgnIsReconstructed := fun dp pf ps =>
  ⟨pgn_toNat dp pf ps, fun hpf ps' => BitVec.eq_of_toNat_eq (by
    rw [pgn_toNat, pgn_toNat, if_pos hpf, if_pos hpf])⟩

/-- Settles O25: only BST 95 depends on its `pduf`. -/
theorem destinationIsTheLayouts : Obligations.DestinationIsTheLayouts :=
  ⟨fun _ => ⟨rfl, rfl⟩, fun _ => rfl,
    fun _ => ⟨fun hpdu1 => if_pos hpdu1, fun hpdu2 => if_neg (Nat.not_lt.mpr hpdu2)⟩⟩

/-- Settles O26: `trc` has four values, and the table's eight entries are read off. -/
theorem tickAndRolloverOfTrc : Obligations.TickAndRolloverOfTrc :=
  ⟨⟨rfl, rfl, rfl, rfl⟩, ⟨rfl, rfl, rfl, rfl⟩⟩

/-- A bit field of a byte is a quotient and remainder of its value. -/
theorem toNat_bitField (b : Byte) (start len : Nat) :
    (b.extractLsb' start len).toNat = b.toNat / 2 ^ start % 2 ^ len := by
  rw [BitVec.extractLsb'_toNat, Nat.shiftRight_eq_div_pow]

/-- Settles O27: `seqD0` is the topmost field, so its remainder cuts nothing off. -/
theorem d0AccessorsTakeTheirBits : Obligations.D0AccessorsTakeTheirBits := by
  intro b
  have hb := b.isLt
  simp only [dpD0, prioD0, seqD0, pgnCtlD0, toNat_bitField]
  omega

end Sys2Proof.Proofs
end

section
/-! The message decoder's one event is the one that its rules read by offset
(spec/42_message_decoder.md R89 to R103). -/

namespace Sys2Proof.Proofs
open Sys2Proof Sys2Proof.Machine

/-! ### A layout that is read names the bytes it was read from (R48, R51, R55) -/

theorem eq_of_ngtLayout_eq_some {tail : List Byte} {y : NgtLayout} (hy : ngtLayout tail = some y) :
    tail = [y.l, y.p, y.pdus, y.pduf, y.dp, y.d, y.dl] ++ y.data := by
  unfold ngtLayout at hy
  split at hy <;> cases hy
  rfl

theorem eq_of_canLayout_eq_some {tail : List Byte} {y : CanLayout} (hy : canLayout tail = some y) :
    tail = [y.l, y.t0, y.t1, y.s, y.pdus, y.pduf, y.dppc] ++ y.data := by
  unfold canLayout at hy
  split at hy <;> cases hy
  rfl

theorem eq_of_n2kLayout_eq_some {tail : List Byte} {y : N2kLayout} (hy : n2kLayout tail = some y) :
    tail = [y.ll0, y.ll1, y.d, y.s, y.pdus, y.pduf, y.dpp, y.c, y.t0, y.t1, y.t2, y.t3] ++
      y.data := by
  unfold n2kLayout at hy
  split at hy <;> cases hy
  rfl

/-! ### The four layouts -/

/-- R92 to R94. -/
theorem ngtEvent_eq_ngtByOffset {tag : Byte} {pack : Bst93Rec → BstRec}
    (htag : ∀ r, (pack r).tag = tag) (tail : List Byte) :
    ngtEvent tag pack tail = ngtByOffset tag pack (tag :: tail) := by
  obtain ⟨hlen, hnone⟩ | ⟨y, hy, hlen⟩ := ngtLayout_cases tail
  · have hshort : (tag :: tail).length < 8 := Nat.succ_lt_succ hlen
    simp only [ngtEvent, hnone, ngtByOffset, if_pos hshort]
    rfl
  · have hlong : ¬ (tag :: tail).length < 8 := by simp [hlen]
    simp only [ngtEvent, hy, msgEvent, htag, ngtByOffset, if_neg hlong]
    rw [eq_of_ngtLayout_eq_some hy]
    rfl

/-- R97 to R99. -/
theorem canEvent_eq_canByOffset (tail : List Byte) :
    canEvent tail = canByOffset (idBst95 :: tail) := by
  obtain ⟨hlen, hnone⟩ | ⟨y, hy, hlen⟩ := canLayout_cases tail
  · have hshort : (idBst95 :: tail).length < 8 := Nat.succ_lt_succ hlen
    simp only [canEvent, hnone, canByOffset, if_pos hshort]
    rfl
  · have hlong : ¬ (idBst95 :: tail).length < 8 := by simp [hlen]
    simp only [canEvent, hy, canByOffset, if_neg hlong]
    rw [eq_of_canLayout_eq_some hy]
    rfl

/-- R101 to R103. -/
theorem n2kEvent_eq_n2kByOffset (tail : List Byte) :
    n2kEvent tail = n2kByOffset (idBstD0 :: tail) := by
  obtain ⟨hlen, hnone⟩ | ⟨y, hy, hlen⟩ := n2kLayout_cases tail
  · have hshort : (idBstD0 :: tail).length < 13 := Nat.succ_lt_succ hlen
    simp only [n2kEvent, hnone, n2kByOffset, if_pos hshort]
    rfl
  · have hlong : ¬ (idBstD0 :: tail).length < 13 := by simp [hlen]
    simp only [n2kEvent, hy, n2kByOffset, if_neg hlong]
    rw [eq_of_n2kLayout_eq_some hy]
    rfl

/-! ### The dispatch -/

/-- R89 to R91: `BstDecode` appends the frame's event and changes nothing else. -/
theorem bstDecode_eq_emit (frame : List Byte) (s : State) :
    bstDecode frame s = emit (eventOfFrame frame) s := by
  cases frame with
  | nil => rfl
  | cons id tail =>
    by_cases h93 : id = idBst93
    · subst h93
      exact congrArg (emit · s) (ngtEvent_eq_ngtByOffset (pack := .bst93) (fun _ => rfl) tail)
    by_cases h94 : id = idBst94
    · subst h94
      exact congrArg (emit · s) (ngtEvent_eq_ngtByOffset (pack := .bst94) (fun _ => rfl) tail)
    by_cases h95 : id = idBst95
    · subst h95
      exact congrArg (emit · s) (canEvent_eq_canByOffset tail)
    by_cases hD0 : id = idBstD0
    · subst hD0
      exact congrArg (emit · s) (n2kEvent_eq_n2kByOffset tail)
    · simp [bstDecode, decodeFrame, eventOfFrame, memRead1, h93, h94, h95, hD0, runFrameRow,
        bstUnknown, unknownEvent]

end Sys2Proof.Proofs
end

section
/-! The frame decoder's arms (spec/40_frame_decoder.md R67 to R81): the decoder picks exactly one
row for each state and byte, so FEED of a row's byte is the row, and each rule is the equation of
its row. -/

namespace Sys2Proof.Proofs
open Sys2Proof Sys2Proof.Machine

/-! ### The one arm of a state and a byte (R81) -/

theorem encodesAt_wire_iff {st : RxState} {b : Byte} {i : Instr} :
    EncodesAt (.wire st) [b] i ↔ i = decodeWire st b :=
  ⟨fun hi => (Except.ok.inj (decode_eq_ok_iff.mpr hi)).symm,
    fun hi => hi ▸ encodesAt_decodeWire st b⟩

/-- Settles O16: decoding and encoding are one relation, and the decoder is a function. -/
theorem exactlyOneArmPerStateAndByte : Obligations.ExactlyOneArmPerStateAndByte :=
  fun _ _ _ => encodesAt_wire_iff

/-- R117: FEED is the row that the byte encodes in the decoder's state. -/
theorem exec_feed_of_encodesAt {s : State} {b : Byte} {i : Instr}
    (hi : EncodesAt (.wire s.rxState) [b] i) : exec (.feed b) s = exec i s := by
  have ⟨_, hp, _⟩ := hi
  rw [exec_eq_runWireRow hp, encodesAt_wire_iff.mp hi]
  rfl

/-- What the row of a byte answers, FEED of the byte answers. -/
theorem exec_row_and_feed {s s' : State} {st : RxState} {b : Byte} {i : Instr}
    (hst : s.rxState = st) (hi : EncodesAt (.wire st) [b] i) (hrow : exec i s = .next s') :
    exec i s = .next s' ∧ exec (.feed b) s = .next s' :=
  ⟨hrow, (exec_feed_of_encodesAt (hst ▸ hi)).trans hrow⟩

/-! ### Scanning (R67 to R71) -/

/-- Settles O3: the row skips the byte. -/
theorem scanDiscardsOtherBytes : Obligations.ScanDiscardsOtherBytes := fun _ _ hst hdle =>
  exec_row_and_feed hst ⟨wellFormed_scanOther_iff.mpr hdle, rfl, rfl⟩ rfl

/-- Settles O4: in SCAN the row's guard holds. -/
theorem scanRemembersTheDle : Obligations.ScanRemembersTheDle := fun _ hst =>
  exec_row_and_feed hst ⟨rfl, rfl, rfl⟩ (congrArg Host.Outcome.next (if_pos hst))

/-- Settles O5: in SCAN_DLE the row's guard holds. -/
theorem dleStxOpensAFrame : Obligations.DleStxOpensAFrame := fun _ hst =>
  exec_row_and_feed hst ⟨rfl, rfl, rfl⟩ (congrArg Host.Outcome.next (if_pos hst))

/-- Settles O7: in SCAN_DLE the row's guard asks only what the byte is not. -/
theorem scanDleOtherByteReturnsToScan : Obligations.ScanDleOtherByteReturnsToScan :=
  fun _ _ hst hstx hdle =>
    exec_row_and_feed hst ⟨wellFormed_scanDleOther_iff.mpr ⟨hstx, hdle⟩, rfl, rfl⟩
      (congrArg Host.Outcome.next (if_pos ⟨hst, hstx, hdle⟩))

/-! ### Inside a frame (R72 to R75, R77 to R79) -/

/-- Settles O8: in BODY the row's guard holds, and it does not ask for the buffer. -/
theorem bodyDleMarksAnEscape : Obligations.BodyDleMarksAnEscape := fun _ hst =>
  exec_row_and_feed hst ⟨rfl, rfl, rfl⟩ (congrArg Host.Outcome.next (if_pos hst))

/-- Settles O9: the two branches of Append. -/
theorem appendStoresOrOverflows : Obligations.AppendStoresOrOverflows := fun _ _ =>
  ⟨fun hfull => append_full hfull, fun hroom => if_neg hroom⟩

theorem exec_bodyData {s : State} {b : Byte} (hst : s.rxState = .body) (hdle : b ≠ dle) :
    exec (.bodyData b) s = .next (append b s) :=
  congrArg Host.Outcome.next (if_pos ⟨hst, hdle⟩)

/-- Settles O10: the row appends its byte. -/
theorem bodyDataByteIsAppended : Obligations.BodyDataByteIsAppended := by
  intro s b hst hdle
  obtain ⟨hoverflow, hstore⟩ := appendStoresOrOverflows s b
  have hrow := exec_row_and_feed hst ⟨wellFormed_bodyData_iff.mpr hdle, rfl, rfl⟩
    (exec_bodyData hst hdle)
  exact ⟨fun hroom => hstore hroom ▸ hrow, fun hfull => hoverflow hfull ▸ hrow⟩

theorem exec_escDle {s : State} (hst : s.rxState = .bodyEsc) :
    exec .escDle s = .next (append dle { s with rxState := .body }) :=
  congrArg Host.Outcome.next (if_pos hst)

/-- Settles O13: in BODY_ESC the row's guard holds, and the error reopens the frame. -/
theorem stxInAFrameReportsAndReopens : Obligations.StxInAFrameReportsAndReopens := fun _ hst =>
  exec_row_and_feed hst ⟨rfl, rfl, rfl⟩ (congrArg Host.Outcome.next (if_pos hst))

/-- Settles O14: in BODY_ESC the row's guard asks only what the byte is not. -/
theorem badEscapeReportsAndResynchronises : Obligations.BadEscapeReportsAndResynchronises :=
  fun _ _ hst hstx hetx hdle =>
    exec_row_and_feed hst ⟨wellFormed_badEscape_iff.mpr ⟨hstx, hetx, hdle⟩, rfl, rfl⟩
      (congrArg Host.Outcome.next (if_pos ⟨hst, hstx, hetx, hdle⟩))

/-! ### The frame's end (R76) -/

section
variable {s : State} {body : List Byte} {c : Byte}

theorem frameEnd_of_buf_nil (hst : s.rxState = .bodyEsc) (hbuf : s.buf = []) :
    frameEnd s = raise (.checksumMismatch 0 none none) .scan s := by
  obtain ⟨-, hend⟩ | ⟨hne, -⟩ | ⟨hne, -⟩ := frameEnd_cases hst
  · exact hend
  · exact absurd hbuf hne
  · exact absurd hbuf hne

theorem frameEnd_of_sum8_eq_zero (hst : s.rxState = .bodyEsc) (hbuf : s.buf = body ++ [c])
    (hsum : sum8 s.buf = 0#8) : frameEnd s = toScan (emit (eventOfFrame body) s) := by
  obtain ⟨hnil, -⟩ | ⟨-, -, hend⟩ | ⟨-, hne, -⟩ := frameEnd_cases hst
  · simp [hbuf] at hnil
  · rw [hend, bstDecode_eq_emit, hbuf, List.dropLast_concat]
  · exact absurd hsum hne

theorem frameEnd_of_sum8_ne_zero (hst : s.rxState = .bodyEsc) (hbuf : s.buf = body ++ [c])
    (hsum : sum8 s.buf ≠ 0#8) :
    frameEnd s =
      raise (.checksumMismatch body.length (some c) (some (checksum body))) .scan s := by
  obtain ⟨hnil, -⟩ | ⟨-, hzero, -⟩ | ⟨-, -, hend⟩ := frameEnd_cases hst
  · simp [hbuf] at hnil
  · exact absurd hzero hsum
  · rw [hend, hbuf, List.dropLast_concat, List.getLast?_concat, List.length_append,
      List.length_singleton, Nat.add_sub_cancel]

end

/-- Settles O12: the frame's end by its three outcomes, the buffer's last byte apart. -/
theorem frameEndVerifiesTheChecksum : Obligations.FrameEndVerifiesTheChecksum := fun _ hst =>
  ⟨exec_feed_of_encodesAt (hst ▸ ⟨rfl, rfl, rfl⟩),
    fun hnil => congrArg Host.Outcome.next (frameEnd_of_buf_nil hst hnil),
    fun _ _ hbuf =>
      ⟨fun hsum => congrArg Host.Outcome.next (frameEnd_of_sum8_eq_zero hst hbuf hsum),
        fun hsum => congrArg Host.Outcome.next (frameEnd_of_sum8_ne_zero hst hbuf hsum)⟩⟩

/-! ### A row outside its state (log 9) -/

/-- Settles O15: two rows skip in every state, and the guards of the others name their state. -/
theorem rowsOutsideTheirStateDoNothing : Obligations.RowsOutsideTheirStateDoNothing := fun _ _ =>
  ⟨fun hst => ⟨rfl, congrArg _ (if_neg hst)⟩,
    fun hst => ⟨congrArg _ (if_neg hst), rfl, congrArg _ (if_neg fun ⟨h, _⟩ => hst h)⟩,
    fun hst => ⟨congrArg _ (if_neg hst), congrArg _ (if_neg fun ⟨h, _⟩ => hst h)⟩,
    fun hst => ⟨congrArg _ (if_neg hst), congrArg _ (if_neg hst), congrArg _ (if_neg hst),
      congrArg _ (if_neg fun ⟨h, _⟩ => hst h)⟩⟩

end Sys2Proof.Proofs
end

section
/-! What FEED_CHUNK does over a whole frame: the bytes `10 02` open it, stuffed data is held as the
data it stands for, and `10 03` ends it (spec/40_frame_decoder.md R67 to R78). -/

namespace Sys2Proof.Proofs
open Sys2Proof Sys2Proof.Machine

theorem feedChunk_append (xs ys : List Byte) (s : State) :
    feedChunk (xs ++ ys) s = feedChunk ys (feedChunk xs s) := by
  induction xs generalizing s with
  | nil => rfl
  | cons x xs ih => exact ih (feed x s)

/-! ### The frame's start -/

/-- R68 to R70: in SCAN_DLE the frame's own DLE changes nothing. -/
theorem feedChunk_start {s : State} (hst : s.rxState = .scan ∨ s.rxState = .scanDle) :
    feedChunk [dle, stx] s = openFrame s := by
  obtain hst | hst := hst
  · simp [feed_scan hst, feed_scanDle (s := { s with rxState := .scanDle }) rfl, openFrame]
  · simp [feed_scanDle hst]

/-- Settles O6: the row skips, and the frame opens at the last two bytes because the first DLE
leaves SCAN_DLE. -/
theorem dleDleWhileScanningStays : Obligations.DleDleWhileScanningStays := by
  refine ⟨fun s hst => exec_row_and_feed hst ⟨rfl, rfl, rfl⟩ rfl, fun s hst => ?_⟩
  have hdle : feed dle s = { s with rxState := .scanDle } := by simp [feed_scan hst]
  have hopen : feedChunk [dle, dle, stx] s = openFrame { s with rxState := .scanDle } := by
    rw [feedChunk_cons, hdle, feedChunk_start (.inr rfl)]
  exact congrArg Host.Outcome.next hopen

/-! ### The frame's data -/

/-- R73, R75: one byte as the encoder stuffs it is that byte, where the buffer has room. -/
theorem feedChunk_stuff_singleton {s : State} (hst : s.rxState = .body)
    (hroom : s.buf.length < s.cfg.maxFrame + 1) (b : Byte) :
    feedChunk (stuff [b]) s = { s with buf := s.buf ++ [b] } := by
  by_cases hb : b = dle
  · have hback : ({ s with rxState := .body } : State) = s := by rw [← hst]
    simp [stuff_cons, hb, feed_body hst, feed_bodyEsc (s := { s with rxState := .bodyEsc }) rfl,
      hback, append_room hroom]
  · simp [stuff_cons, hb, feed_body hst, append_room hroom]

/-- R73, R75: stuffed data is held as the data it stands for. -/
theorem feedChunk_stuff {s : State} (hst : s.rxState = .body) {data : List Byte}
    (hroom : s.buf.length + data.length ≤ s.cfg.maxFrame + 1) :
    feedChunk (stuff data) s = { s with buf := s.buf ++ data } := by
  induction data generalizing s with
  | nil => simp
  | cons b data ih =>
    rw [List.length_cons] at hroom
    rw [← List.singleton_append, stuff_append, feedChunk_append,
      feedChunk_stuff_singleton hst (by omega), ih (s := { s with buf := s.buf ++ [b] }) hst,
      List.append_assoc]
    simp only [List.length_append, List.length_singleton]
    omega

/-- R43: without a DLE nothing is doubled. -/
theorem stuff_eq_self {data : List Byte} (hdata : ∀ d ∈ data, d ≠ dle) : stuff data = data := by
  induction data with
  | nil => rfl
  | cons b data ih =>
    obtain ⟨hb, hrest⟩ := List.forall_mem_cons.mp hdata
    rw [stuff_cons, if_neg hb, ih hrest]

/-- Settles O11: the row appends a DLE; four DLEs are two stuffed, three are one and an escape. -/
theorem stuffedDleIsOneByte : Obligations.StuffedDleIsOneByte := by
  refine ⟨fun s hst => ?_, fun s hst hroom => ?_⟩
  · obtain ⟨hoverflow, hstore⟩ := appendStoresOrOverflows { s with rxState := .body } dle
    have hrow := exec_row_and_feed (b := dle) hst ⟨rfl, rfl, rfl⟩ (exec_escDle hst)
    exact ⟨fun hr => hstore hr ▸ hrow, fun hfull => hoverflow hfull ▸ hrow⟩
  · have htwo : feedChunk (stuff [dle, dle]) s = { s with buf := s.buf ++ [dle, dle] } :=
      feedChunk_stuff hst hroom
    have hone : feedChunk (stuff [dle]) s = { s with buf := s.buf ++ [dle] } :=
      feedChunk_stuff_singleton hst (by omega) dle
    have hthree : feedChunk (stuff [dle] ++ [dle]) s =
        { s with rxState := .bodyEsc, buf := s.buf ++ [dle] } := by
      simp [feedChunk_append, hone, feed_body (s := { s with buf := s.buf ++ [dle] }) hst]
    exact ⟨congrArg Host.Outcome.next htwo, congrArg Host.Outcome.next hthree⟩

/-! ### Whole frames -/

section
variable {s : State} {data : List Byte}

/-- R69, R73, R75: a frame begun while scanning holds its data. -/
theorem feedChunk_start_stuff (hst : s.rxState = .scan ∨ s.rxState = .scanDle)
    (hfits : data.length ≤ s.cfg.maxFrame + 1) :
    feedChunk ([dle, stx] ++ stuff data) s = { s with rxState := .body, buf := data } := by
  rw [feedChunk_append, feedChunk_start hst, feedChunk_stuff rfl (by simpa using hfits)]
  rfl

/-- R72, R76: the two bytes of a frame's end. -/
theorem feedChunk_end (hst : s.rxState = .body) :
    feedChunk [dle, etx] s = frameEnd { s with rxState := .bodyEsc } := by
  simp [feed_body hst, feed_bodyEsc (s := { s with rxState := .bodyEsc }) rfl]

/-- R42: a whole frame, its checksum byte among the data. -/
theorem feedChunk_frame (hst : s.rxState = .scan ∨ s.rxState = .scanDle)
    (hfits : data.length ≤ s.cfg.maxFrame + 1) :
    feedChunk ([dle, stx] ++ stuff data ++ [dle, etx]) s =
      frameEnd { s with rxState := .bodyEsc, buf := data } := by
  rw [feedChunk_append, feedChunk_start_stuff hst hfits, feedChunk_end rfl]

end

/-- Settles O58: with one byte more than the bound, the last is appended to a full buffer. -/
theorem overlongFrameIsReportedOnce : Obligations.OverlongFrameIsReportedOnce := by
  intro s ds hst hds
  refine ⟨fun hfits => ?_, fun hlong => ?_⟩
  · have hheld := feedChunk_start_stuff (.inl hst) hfits
    rw [stuff_eq_self hds] at hheld
    exact congrArg Host.Outcome.next hheld
  · have hne : ds ≠ [] := by
      rintro rfl
      simp at hlong
    obtain ⟨xs, d, rfl⟩ := (List.eq_nil_or_concat' ds).resolve_left hne
    have hfull : xs.length = s.cfg.maxFrame + 1 := by simpa using hlong
    have hxs : stuff xs = xs := stuff_eq_self fun x hx => hds x (List.mem_append_left _ hx)
    have hd : d ≠ dle := hds d (by simp)
    have hheld := feedChunk_start_stuff (.inl hst) hfull.le
    rw [hxs] at hheld
    have hrun : feedChunk ([dle, stx] ++ (xs ++ [d])) s =
        raise (.frameTooLarge s.cfg.maxFrame) .scan { s with rxState := .body, buf := xs } := by
      rw [← List.append_assoc, feedChunk_append, hheld, feedChunk_cons, feedChunk_nil,
        feed_body rfl, if_neg hd, append_full hfull]
    exact congrArg Host.Outcome.next hrun

/-- Settles O56: the wrong byte is one more byte of data, and with it the sum is not 0. -/
theorem corruptedChecksumIsReported : Obligations.CorruptedChecksumIsReported := by
  intro s p c hst hfits hdle hwrong
  have hframe : [dle, stx] ++ stuff p ++ [c, dle, etx] =
      [dle, stx] ++ stuff (p ++ [c]) ++ [dle, etx] := by
    simp [stuff_append, stuff_cons, hdle]
  have hsum : sum8 (p ++ [c]) ≠ 0#8 := fun h => hwrong ((sum8_append_singleton_eq_zero p c).mp h)
  have hrun : feedChunk ([dle, stx] ++ stuff p ++ [c, dle, etx]) s =
      raise (.checksumMismatch p.length (some c) (some (checksum p))) .scan
        { s with rxState := .bodyEsc, buf := p ++ [c] } := by
    rw [hframe, feedChunk_frame (.inl hst) (by simpa using hfits),
      frameEnd_of_sum8_ne_zero rfl rfl hsum]
  exact congrArg Host.Outcome.next hrun

end Sys2Proof.Proofs
end

section
/-! What a fed byte adds to the event stream (spec/40_frame_decoder.md R80,
spec/60_exceptions.md R131). -/

namespace Sys2Proof.Proofs
open Sys2Proof Sys2Proof.Machine

theorem append_evt_cases (x : Byte) (s : State) :
    (append x s).evt = s.evt ∨ ∃ e, (append x s).evt = s.evt ++ [e] := by
  obtain ⟨-, happ⟩ | ⟨-, happ⟩ := append_cases x s
  · exact .inr ⟨_, by rw [happ, raise_evt]⟩
  · exact .inl (by rw [happ])

/-- R76: each of the three outcomes is one event. -/
theorem frameEnd_evt {s : State} (hst : s.rxState = .bodyEsc) :
    ∃ e, (frameEnd s).evt = s.evt ++ [e] := by
  obtain ⟨-, hend⟩ | ⟨-, -, hend⟩ | ⟨-, -, hend⟩ := frameEnd_cases hst
  · exact ⟨_, by rw [hend, raise_evt]⟩
  · exact ⟨_, by rw [hend, bstDecode_eq_emit, toScan_evt, emit_evt]⟩
  · exact ⟨_, by rw [hend, raise_evt]⟩

/-- R80: the state of the decoder and the byte choose what is done, and nothing does two things. -/
theorem feed_evt_cases (b : Byte) (s : State) :
    (feed b s).evt = s.evt ∨ ∃ e, (feed b s).evt = s.evt ++ [e] := by
  cases hst : s.rxState with
  | scan =>
    rw [feed_scan hst]
    split_ifs <;> exact .inl rfl
  | scanDle =>
    rw [feed_scanDle hst]
    split_ifs <;> exact .inl rfl
  | body =>
    rw [feed_body hst]
    split_ifs
    · exact .inl rfl
    · exact append_evt_cases b s
  | bodyEsc =>
    rw [feed_bodyEsc hst]
    split_ifs
    · exact append_evt_cases dle { s with rxState := .body }
    · exact .inr (frameEnd_evt hst)
    · exact .inr ⟨_, raise_evt _ _ _⟩
    · exact .inr ⟨_, raise_evt _ _ _⟩

theorem feed_evt_length_le (b : Byte) (s : State) :
    ∃ es, (feed b s).evt = s.evt ++ es ∧ es.length ≤ 1 := by
  obtain hsame | ⟨e, hone⟩ := feed_evt_cases b s
  · exact ⟨[], by rw [hsame, List.append_nil], Nat.zero_le 1⟩
  · exact ⟨[e], hone, Nat.le_refl 1⟩

theorem feedChunk_evt_length_le (bs : List Byte) (s : State) :
    ∃ es, (feedChunk bs s).evt = s.evt ++ es ∧ es.length ≤ bs.length := by
  induction bs generalizing s with
  | nil => exact ⟨[], (List.append_nil _).symm, Nat.le_refl 0⟩
  | cons b bs ih =>
    obtain ⟨es, hfeed, hone⟩ := feed_evt_length_le b s
    obtain ⟨es', hrest, hlen⟩ := ih (feed b s)
    refine ⟨es ++ es', by rw [feedChunk_cons, hrest, hfeed, List.append_assoc], ?_⟩
    rw [List.length_append, List.length_cons]
    omega

/-- Settles O45: one byte, then a chunk by its bytes. -/
theorem atMostOneEventPerByte : Obligations.AtMostOneEventPerByte := by
  refine ⟨fun s s' b hexec => ?_, fun s s' bs hexec => ?_⟩
  · obtain rfl := Host.Outcome.next.inj hexec
    exact feed_evt_cases b s
  · obtain rfl := Host.Outcome.next.inj hexec
    exact feedChunk_evt_length_le bs s

end Sys2Proof.Proofs
end

section
/-! Runs of the machine that only receive (spec/40_frame_decoder.md R82): whatever operations a
stream is cut into, a run is the one pass of FEED over its bytes. -/

namespace Sys2Proof.Proofs
open Sys2Proof Sys2Proof.Machine

/-- Neither path reads the operations waiting. -/
theorem IgnoresTx.withOps {f : State → State} (hf : IgnoresTx f) (s : State)
    (ops : List (List Byte)) : f { s with ops := ops } = { f s with ops := ops } := by
  obtain ⟨htxout, hresults⟩ := hf.frame s
  have hcommute : f { s with ops := ops } = withTxOf { s with ops := ops } (f s) :=
    hf { s with ops := ops } s
  rw [hcommute, withTxOf, ← htxout, ← hresults]

theorem run_succ_of_step {s s' : State} (hstep : step s = .next s') (k : Nat) :
    Host.Core.run core (k + 1) s = Host.Core.run core k s' := by
  simp only [Host.Core.run, show core.step s = .next s' from hstep]

/-- A run of operations `op a`, each of which does `act a` to the receive path: the meanings in
order, and no operation left. -/
theorem run_map_ops {α : Type} {op : α → List Byte} {act : α → State → State}
    (hstep : ∀ (a : α) (s : State) (rest : List (List Byte)),
      step { s with ops := op a :: rest } = .next (act a { s with ops := rest }))
    (hact : ∀ a, IgnoresTx (act a)) (as : List α) (s : State) :
    Host.Core.run core as.length { s with ops := as.map op } =
      .next { as.foldl (fun t a => act a t) s with ops := [] } := by
  induction as generalizing s with
  | nil => rfl
  | cons a as ih =>
    rw [List.map_cons, List.length_cons, run_succ_of_step (hstep a s _), (hact a).withOps, ih,
      List.foldl_cons]

theorem feedChunk_eq_foldl (bs : List Byte) (s : State) :
    feedChunk bs s = bs.foldl (fun t b => feed b t) s := by
  induction bs generalizing s with
  | nil => rfl
  | cons b bs ih => exact ih (feed b s)

theorem feedChunk_flatten (chunks : List (List Byte)) (s : State) :
    feedChunk chunks.flatten s = chunks.foldl (fun t c => feedChunk c t) s := by
  induction chunks generalizing s with
  | nil => rfl
  | cons c chunks ih => rw [List.flatten_cons, feedChunk_append, ih, List.foldl_cons]

theorem run_feeds (bs : List Byte) (s : State) :
    Host.Core.run core bs.length { s with ops := bs.map fun b => [opFeed, b] } =
      .next { feedChunk bs s with ops := [] } := by
  rw [feedChunk_eq_foldl]
  exact run_map_ops (fun b s rest => stepRunsTheEncodedOperation s (.feed b) rest rfl)
    ignoresTx_feed bs s

theorem run_feedChunks (chunks : List (List Byte)) (s : State) :
    Host.Core.run core chunks.length { s with ops := chunks.map fun c => opFeedChunk :: c } =
      .next { feedChunk chunks.flatten s with ops := [] } := by
  rw [feedChunk_flatten]
  exact run_map_ops (fun c s rest => stepRunsTheEncodedOperation s (.feedChunk c) rest rfl)
    ignoresTx_feedChunk chunks s

/-- Settles O49: all three runs end in the one pass over the bytes; one FEED_CHUNK of all is a
stream of one chunk. -/
theorem chunkBoundariesCarryNoMeaning : Obligations.ChunkBoundariesCarryNoMeaning := by
  intro s chunks
  have hwhole : Host.Core.run core 1 { s with ops := [opFeedChunk :: chunks.flatten] } =
      .next { feedChunk chunks.flatten s with ops := [] } := by
    simpa using run_feedChunks [chunks.flatten] s
  exact ⟨(run_feedChunks chunks s).trans hwhole.symm,
    (run_feeds chunks.flatten s).trans hwhole.symm⟩

end Sys2Proof.Proofs
end

section
/-! The encoder's frames, sent and received again (spec/41_frame_encoder.md R83 to R88): how long a
frame is, what ENCODE_FRAME answers, and what a whole frame does in each state of the decoder. -/

namespace Sys2Proof.Proofs
open Sys2Proof Sys2Proof.Machine

/-! ### The frame that is sent (R83, R84, R87) -/

/-- R46: stuffing adds one byte for each DLE. -/
theorem length_stuff (l : List Byte) : (stuff l).length = l.length + l.count dle := by
  induction l with
  | nil => rfl
  | cons b l ih =>
    by_cases hb : b = dle
    · simp [stuff_cons, hb, ih]
      omega
    · simp [stuff_cons, hb, ih]
      omega

/-- Settles O30: four envelope bytes around the stuffed data, in which at most every byte is a
DLE. -/
theorem encodedFrameLength : Obligations.EncodedFrameLength := by
  intro p
  have hlen : (wireFrame p).length = p.length + 5 + (p ++ [checksum p]).count dle := by
    simp only [wireFrame, List.length_append, length_stuff, List.length_cons, List.length_nil]
    omega
  have hcount : (p ++ [checksum p]).count dle ≤ (p ++ [checksum p]).length := List.count_le_length
  rw [List.length_append, List.length_singleton] at hcount
  exact ⟨hlen, by omega⟩

/-- Settles O28: the two outcomes of the size check. -/
theorem encodeFrameAppendsTheFrame : Obligations.EncodeFrameAppendsTheFrame := by
  intro s p
  obtain ⟨hlong, hrun⟩ | ⟨hfits, hrun⟩ := transmit_cases p s
  · exact ⟨fun hfits => absurd hfits hlong.not_ge, fun _ => congrArg Host.Outcome.next hrun⟩
  · exact ⟨fun _ => congrArg Host.Outcome.next hrun, fun hlong => absurd hfits hlong.not_ge⟩

/-! ### The frame's first two bytes inside another frame -/

section
variable {s : State} {p : List Byte}

/-- R72, R77: in BODY the pending frame is reported, and the new one is open. -/
theorem feedChunk_start_of_body (hst : s.rxState = .body) :
    feedChunk [dle, stx] s = raise (.unescapedControlByte stx s.buf.length) .body s := by
  simp [feed_body hst, feed_bodyEsc (s := { s with rxState := .bodyEsc }) rfl, raise]

/-- R73, R75: after a lone DLE the two bytes are data of the pending frame. -/
theorem feedChunk_start_of_bodyEsc (hst : s.rxState = .bodyEsc)
    (hroom : s.buf.length + 2 ≤ s.cfg.maxFrame + 1) :
    feedChunk [dle, stx] s = { s with rxState := .body, buf := s.buf ++ [dle, stx] } := by
  have hone : s.buf.length < s.cfg.maxFrame + 1 := by omega
  have htwo : (s.buf ++ [dle]).length < s.cfg.maxFrame + 1 := by
    rw [List.length_append, List.length_singleton]
    omega
  have hdle : feed dle s = { s with rxState := .body, buf := s.buf ++ [dle] } := by
    rw [feed_bodyEsc hst, if_pos rfl, append_room (s := { s with rxState := .body }) hone]
  rw [feedChunk_cons, hdle, feedChunk_cons, feedChunk_nil, feed_body rfl, if_neg (by simp),
    append_room (s := { s with rxState := .body, buf := s.buf ++ [dle] }) htwo, List.append_assoc]
  rfl

/-! ### The rest of the frame -/

theorem feedChunk_wireFrame (p : List Byte) (s : State) :
    feedChunk (wireFrame p) s =
      feedChunk (stuff (p ++ [checksum p]) ++ [dle, etx]) (feedChunk [dle, stx] s) := by
  rw [wireFrame, List.append_assoc, feedChunk_append]

/-- R72 to R76: in BODY the data joins what is held, and the frame ends. -/
theorem feedChunk_stuff_end (hst : s.rxState = .body) {data : List Byte}
    (hroom : s.buf.length + data.length ≤ s.cfg.maxFrame + 1) :
    feedChunk (stuff data ++ [dle, etx]) s =
      frameEnd { s with rxState := .bodyEsc, buf := s.buf ++ data } := by
  rw [feedChunk_append, feedChunk_stuff hst hroom,
    feedChunk_end (s := { s with buf := s.buf ++ data }) hst]

/-- R44, R76: into an open frame that holds nothing, a payload with its checksum is delivered. -/
theorem feedChunk_payload (hst : s.rxState = .body) (hbuf : s.buf = [])
    (hfits : p.length ≤ s.cfg.maxFrame) :
    feedChunk (stuff (p ++ [checksum p]) ++ [dle, etx]) s = toScan (emit (eventOfFrame p) s) := by
  have hsum : sum8 (p ++ [checksum p]) = 0#8 := (sum8_append_singleton_eq_zero _ _).mpr rfl
  rw [feedChunk_stuff_end hst (by simpa [hbuf] using hfits), hbuf, List.nil_append,
    frameEnd_of_sum8_eq_zero (s := { s with rxState := _, buf := _ }) rfl rfl hsum]
  rfl

/-! ### The whole frame, by the state it arrives in (R88) -/

theorem feedChunk_wireFrame_of_scanning (hst : s.rxState = .scan ∨ s.rxState = .scanDle)
    (hfits : p.length ≤ s.cfg.maxFrame) :
    feedChunk (wireFrame p) s = toScan (emit (eventOfFrame p) s) := by
  rw [feedChunk_wireFrame, feedChunk_start hst,
    feedChunk_payload (s := openFrame s) rfl rfl hfits]
  rfl

theorem feedChunk_wireFrame_of_body (hst : s.rxState = .body)
    (hfits : p.length ≤ s.cfg.maxFrame) :
    feedChunk (wireFrame p) s =
      toScan (emit (eventOfFrame p) (raise (.unescapedControlByte stx s.buf.length) .body s)) := by
  rw [feedChunk_wireFrame, feedChunk_start_of_body hst,
    feedChunk_payload (s := raise _ .body s) rfl rfl hfits]

/-- R88 (b): the pending frame ends with the frame's bytes among its own. -/
theorem feedChunk_wireFrame_of_bodyEsc (hst : s.rxState = .bodyEsc)
    (hfits : s.buf.length + 2 + p.length ≤ s.cfg.maxFrame) :
    feedChunk (wireFrame p) s =
      frameEnd { s with buf := s.buf ++ [dle, stx] ++ p ++ [checksum p] } := by
  have hroom : (s.buf ++ [dle, stx]).length + (p ++ [checksum p]).length ≤ s.cfg.maxFrame + 1 := by
    simp only [List.length_append, List.length_cons, List.length_nil]
    omega
  rw [feedChunk_wireFrame, feedChunk_start_of_bodyEsc hst (by omega),
    feedChunk_stuff_end (s := { s with rxState := _, buf := _ }) rfl hroom, ← List.append_assoc,
    ← hst]

end

/-- Settles O50: the frame opens with an empty buffer, and its payload verifies. -/
theorem frameRoundTripFromScanning : Obligations.FrameRoundTripFromScanning := fun _ _ hst hfits =>
  congrArg Host.Outcome.next (feedChunk_wireFrame_of_scanning hst hfits)

/-- Settles O51: the error empties the buffer and leaves the frame open for the payload. -/
theorem frameAfterATruncatedFrame : Obligations.FrameAfterATruncatedFrame := by
  intro s p hst hfits
  have hrun := feedChunk_wireFrame_of_body hst hfits
  simp only [toScan, emit, raise, List.append_assoc] at hrun
  exact congrArg Host.Outcome.next hrun

/-- Settles O52: the merged frame's end, by whether its bytes verify. -/
theorem frameAfterALoneDleIsAbsorbed : Obligations.FrameAfterALoneDleIsAbsorbed := by
  intro s p hst hfits
  have hmerged := feedChunk_wireFrame_of_bodyEsc hst hfits
  have hlen : (s.buf ++ [dle, stx] ++ p).length = s.buf.length + 2 + p.length := by
    simp only [List.length_append, List.length_cons, List.length_nil]
  refine ⟨fun hsum => ?_, fun hsum => ?_⟩
  · exact congrArg Host.Outcome.next (hmerged.trans (frameEnd_of_sum8_eq_zero hst rfl hsum))
  · rw [← hlen]
    exact congrArg Host.Outcome.next (hmerged.trans (frameEnd_of_sum8_ne_zero hst rfl hsum))

end Sys2Proof.Proofs
end

section
/-! The message decoder's rows (spec/42_message_decoder.md R89 to R104): the row that a raw frame
selects does what `BstDecode` does, so each layout's row is the dispatch at its own identifier. -/

namespace Sys2Proof.Proofs
open Sys2Proof Sys2Proof.Machine

/-! ### The dispatch (R89, R90) -/

/-- R89: `exec` of the row that a raw frame selects is `BstDecode` of the frame. -/
theorem exec_eq_bstDecode {f : List Byte} {i : Instr} (hrow : decodeFrame f = some i) (s : State) :
    exec i s = .next (bstDecode f s) := by
  obtain ⟨-, hpoint, -⟩ := encodesAt_of_decodeFrame hrow
  simp only [exec_eq_runFrameRow hpoint, bstDecode, hrow]

/-- R89: the row that a raw frame selects appends the frame's event, read by offset. -/
theorem exec_eq_emit_eventOfFrame {f : List Byte} {i : Instr} (hrow : decodeFrame f = some i)
    (s : State) : exec i s = .next (emit (eventOfFrame f) s) := by
  rw [exec_eq_bstDecode hrow, bstDecode_eq_emit]

/-- Settles O18: the empty frame selects no row and has the event of R90. -/
theorem bstDecodeEmitsOneEvent : Obligations.BstDecodeEmitsOneEvent := by
  intro f s
  refine ⟨bstDecode_eq_emit f s, fun hempty => ?_, fun i hrow => exec_eq_emit_eventOfFrame hrow s⟩
  rw [hempty]
  rfl

/-! ### The four layouts (R92 to R104) -/

/-- Settles O20: identifier 93 dispatches to the layout of R92 to R94. -/
theorem bst93FollowsItsLayout : Obligations.Bst93FollowsItsLayout := fun s tail =>
  exec_eq_emit_eventOfFrame (f := idBst93 :: tail) rfl s

/-- Settles O21: identifier 94 dispatches to the same layout, packed with its own tag. -/
theorem bst94FollowsItsLayout : Obligations.Bst94FollowsItsLayout := fun s tail =>
  exec_eq_emit_eventOfFrame (f := idBst94 :: tail) rfl s

/-- Settles O22: identifier 95 dispatches to the layout of R97 to R99. -/
theorem bst95FollowsItsLayout : Obligations.Bst95FollowsItsLayout := fun s tail =>
  exec_eq_emit_eventOfFrame (f := idBst95 :: tail) rfl s

/-- Settles O23: identifier D0 dispatches to the layout of R101 to R103. -/
theorem bstD0FollowsItsLayout : Obligations.BstD0FollowsItsLayout := fun s tail =>
  exec_eq_emit_eventOfFrame (f := idBstD0 :: tail) rfl s

/-! ### Any other identifier (R91) -/

/-- Settles O19: the identifier matches none of the four that the dispatch compares it with. -/
theorem unknownIdentifierIsReported : Obligations.UnknownIdentifierIsReported := by
  intro s id tail h93 h94 h95 hD0
  refine ⟨?_, rfl⟩
  simp only [decodeFrame, if_neg h93, if_neg h94, if_neg h95, if_neg hD0]

end Sys2Proof.Proofs
end

section
/-! The layouts of the message encoder (spec/43_message_encoder.md R108 to R116): where they place
the fields of a record, and what ENCODE_BST sends of them. -/

namespace Sys2Proof.Proofs
open Sys2Proof Sys2Proof.Machine

/-! ### The fields that a layout packs (R49, R53, R109 to R111) -/

/-- R110: the four fields of DPPC do not overlap. -/
theorem dppcOf_toNat (r : Bst95Rec) :
    (dppcOf r).toNat = r.dp.toNat + 4 * r.prio.toNat + 32 * r.trc.toNat + 128 * r.dir.toNat := by
  have hdp := r.dp.isLt
  have hprio := r.prio.isLt
  have htrc := r.trc.isLt
  have hdir := r.dir.isLt
  simp only [dppcOf, BitVec.toNat_add, BitVec.toNat_mul, BitVec.toNat_setWidth, BitVec.toNat_ofNat]
  omega

/-- R53, R110: DPPC is read back field by field. -/
theorem dppcOf_fields (r : Bst95Rec) :
    (dppcOf r).extractLsb' 0 2 = r.dp ∧ (dppcOf r).extractLsb' 2 3 = r.prio ∧
      (dppcOf r).extractLsb' 5 2 = r.trc ∧ (dppcOf r).extractLsb' 7 1 = r.dir := by
  have hdp := r.dp.isLt
  have hprio := r.prio.isLt
  have htrc := r.trc.isLt
  have hdir := r.dir.isLt
  refine ⟨?_, ?_, ?_, ?_⟩ <;>
    · apply BitVec.eq_of_toNat_eq
      rw [toNat_bitField, dppcOf_toNat]
      omega

/-- R53, R110: the fields read from a DPPC place every bit of it again. -/
theorem dppcOf_canRecord (y : CanLayout) : dppcOf (canRecord y) = y.dppc := by
  have hdppc := y.dppc.isLt
  apply BitVec.eq_of_toNat_eq
  rw [dppcOf_toNat]
  simp only [canRecord, toNat_bitField]
  omega

/-- R49: the low bits of a byte, widened again, are the byte with its reserved bits cleared. -/
theorem setWidth_extractLsb' {len : Nat} (hlen : len ≤ 8) (b : Byte) :
    (b.extractLsb' 0 len).setWidth 8 = b &&& BitVec.ofNat 8 (2 ^ len - 1) := by
  have hpow : 2 ^ len ≤ 2 ^ 8 := Nat.pow_le_pow_right (by decide) hlen
  have hmod : b.toNat % 2 ^ len < 2 ^ 8 :=
    (Nat.mod_lt _ (Nat.two_pow_pos len)).trans_le hpow
  apply BitVec.eq_of_toNat_eq
  rw [BitVec.toNat_setWidth, toNat_bitField, BitVec.toNat_and, BitVec.toNat_ofNat,
    Nat.mod_eq_of_lt (a := 2 ^ len - 1) (by omega), Nat.and_two_pow_sub_one_eq_mod, pow_zero,
    Nat.div_one, Nat.mod_eq_of_lt hmod]

/-- R31, R111: the two bytes of LL. -/
theorem byteOf_ofNat_0 (n : Nat) : byteOf (BitVec.ofNat 16 n) 0 = BitVec.ofNat 8 n := by
  apply BitVec.eq_of_toNat_eq
  rw [byteOf_toNat, BitVec.toNat_ofNat, BitVec.toNat_ofNat]
  omega

theorem byteOf_ofNat_1 (n : Nat) : byteOf (BitVec.ofNat 16 n) 1 = BitVec.ofNat 8 (n / 256) := by
  apply BitVec.eq_of_toNat_eq
  rw [byteOf_toNat, BitVec.toNat_ofNat, BitVec.toNat_ofNat]
  omega

/-! ### The layouts (R109 to R111, R115) -/

/-- R115: the header is 13 bytes for D0 and 8 bytes for the others. -/
theorem length_bstLayout (r : BstRec) :
    (bstLayout r).length = (if r.tag = 0xD0#8 then 13 else 8) + r.data.length := by
  cases r with
  | bst93 r | bst94 r | bst95 r | bstD0 r => exact List.length_append

/-- Settles O32: each layout is written out, and DPPC is the sum of its fields. -/
theorem layoutsPlaceTheirFields : Obligations.LayoutsPlaceTheirFields := by
  refine ⟨fun r => ⟨rfl, rfl⟩, fun r => ⟨dppcOf r, dppcOf_toNat r, rfl⟩, fun r => ?_,
    length_bstLayout⟩
  rw [← byteOf_ofNat_0 r.data.length, ← byteOf_ofNat_1]
  rfl

/-! ### What ENCODE_BST sends (R108, R112) -/

/-- R6, R115: MAX_FRAME leaves room for the longest layout, that of D0 with 1785 data bytes. -/
theorem length_bstLayout_le {r : BstRec} (hr : r.data.length ≤ maxData r) (c : Config) :
    (bstLayout r).length ≤ c.maxFrame := by
  have hframe := c.atLeast
  have hheader : (if r.tag = 0xD0#8 then 13 else 8) ≤ 13 := by split <;> omega
  have hdata : maxData r ≤ 1785 := by cases r <;> simp [maxData]
  rw [length_bstLayout]
  omega

/-- Settles O33: the two outcomes of the validity check; a record that passes it has a layout that
fits. -/
theorem encodeBstAppendsTheLayoutsFrame : Obligations.EncodeBstAppendsTheLayoutsFrame := by
  refine ⟨fun _ _ _ => ⟨rfl, rfl, rfl, rfl⟩, fun s r => ?_⟩
  obtain ⟨hinvalid, hrun⟩ | ⟨hvalid, hrun⟩ := transmitRecord_cases r s
  · have hlong := (bstValid_false_iff r).mp hinvalid
    exact ⟨fun hr => absurd hr hlong.not_ge, fun _ => congrArg Host.Outcome.next hrun⟩
  · have hr := (bstValid_iff r).mp hvalid
    have hsame : exec (.encodeBst r) s = exec (.encodeFrame (bstLayout r)) s :=
      congrArg Host.Outcome.next hrun
    have hsent := (encodeFrameAppendsTheFrame s (bstLayout r)).1 (length_bstLayout_le hr s.cfg)
    exact ⟨fun _ => ⟨hsame, hsame.trans hsent⟩, fun hlong => absurd hr hlong.not_ge⟩

end Sys2Proof.Proofs
end

section
/-! The message encoder and the message decoder are inverse (spec/43_message_encoder.md R113, R114):
for each layout, which frames are accepted, and the two directions from that. -/

namespace Sys2Proof.Proofs
open Sys2Proof Sys2Proof.Machine

theorem msgEvent_inj {r r' : BstRec} : msgEvent r = msgEvent r' ↔ r = r' :=
  ⟨fun h => (Event.msg.inj h).2.2, congrArg msgEvent⟩

theorem lengthError_ne_msgEvent {id : Option Byte} {field : LenField} {declared actual : Nat}
    {r : BstRec} : (lengthError id field declared actual = msgEvent r) = False :=
  eq_false nofun

/-! ### The frames that each layout accepts (R92 to R94, R97 to R99, R101 to R103) -/

/-- R92 to R94: a frame is accepted just where L and DL are its lengths. -/
theorem ngtEvent_eq_msgEvent_iff {tag : Byte} {pack : Bst93Rec → BstRec} {tail : List Byte}
    {r : BstRec} :
    ngtEvent tag pack tail = msgEvent r ↔ ∃ y, ngtLayout tail = some y ∧
      y.l.toNat = 6 + y.data.length ∧ y.dl.toNat = y.data.length ∧ pack (ngtRecord y) = r := by
  obtain ⟨-, hnone⟩ | ⟨y, hy, hlen⟩ := ngtLayout_cases tail
  · simp [ngtEvent, hnone, lengthError_ne_msgEvent]
  · have hl : tail.length + 1 - 2 = 6 + y.data.length := by omega
    have hdl : tail.length + 1 - 8 = y.data.length := by omega
    simp only [ngtEvent, hy, hl, hdl, Option.some.injEq, exists_eq_left']
    split_ifs with hbadL hbadDL
    · simp [lengthError_ne_msgEvent, hbadL]
    · simp [lengthError_ne_msgEvent, hbadDL]
    · simp [msgEvent_inj, not_not.mp hbadL, not_not.mp hbadDL]

/-- R97 to R99: a frame is accepted just where L is its length and the data is at most 8 bytes. -/
theorem canEvent_eq_msgEvent_iff {tail : List Byte} {r : BstRec} :
    canEvent tail = msgEvent r ↔ ∃ y, canLayout tail = some y ∧
      y.l.toNat = 6 + y.data.length ∧ y.data.length ≤ 8 ∧ .bst95 (canRecord y) = r := by
  obtain ⟨-, hnone⟩ | ⟨y, hy, hlen⟩ := canLayout_cases tail
  · simp [canEvent, hnone, lengthError_ne_msgEvent]
  · have hl : tail.length + 1 - 2 = 6 + y.data.length := by omega
    have hdata : tail.length + 1 - 8 = y.data.length := by omega
    simp only [canEvent, hy, hl, hdata, Option.some.injEq, exists_eq_left']
    split_ifs with hbadL hbadData
    · simp [lengthError_ne_msgEvent, hbadL]
    · simp [lengthError_ne_msgEvent, hbadData]
    · simp [msgEvent_inj, not_not.mp hbadL, not_lt.mp hbadData]

/-- R101 to R103: a frame is accepted just where LL is its length and is at most 1785. -/
theorem n2kEvent_eq_msgEvent_iff {tail : List Byte} {r : BstRec} :
    n2kEvent tail = msgEvent r ↔ ∃ y, n2kLayout tail = some y ∧
      (le16 y.ll0 y.ll1).toNat = y.data.length ∧ y.data.length ≤ 1785 ∧
      .bstD0 (n2kRecord y) = r := by
  obtain ⟨-, hnone⟩ | ⟨y, hy, hlen⟩ := n2kLayout_cases tail
  · simp [n2kEvent, hnone, lengthError_ne_msgEvent]
  · have hll : tail.length + 1 - 13 = y.data.length := by omega
    simp only [n2kEvent, hy, hll, Option.some.injEq, exists_eq_left']
    split_ifs with hbadData hbadLL
    · rw [lengthError_ne_msgEvent, false_iff]
      rintro ⟨hgoodLL, hgoodData, -⟩
      omega
    · simp [lengthError_ne_msgEvent, hbadLL]
    · have hdata := not_not.mp hbadLL ▸ not_lt.mp hbadData
      simp [msgEvent_inj, not_not.mp hbadLL, hdata]

/-! ### The event of a frame, by its identifier (R89) -/

theorem eventOfFrame_bst93 (tail : List Byte) :
    eventOfFrame (idBst93 :: tail) = ngtEvent idBst93 .bst93 tail :=
  (ngtEvent_eq_ngtByOffset (pack := .bst93) (fun _ => rfl) tail).symm

theorem eventOfFrame_bst94 (tail : List Byte) :
    eventOfFrame (idBst94 :: tail) = ngtEvent idBst94 .bst94 tail :=
  (ngtEvent_eq_ngtByOffset (pack := .bst94) (fun _ => rfl) tail).symm

theorem eventOfFrame_bst95 (tail : List Byte) :
    eventOfFrame (idBst95 :: tail) = canEvent tail :=
  (canEvent_eq_canByOffset tail).symm

theorem eventOfFrame_bstD0 (tail : List Byte) :
    eventOfFrame (idBstD0 :: tail) = n2kEvent tail :=
  (n2kEvent_eq_n2kByOffset tail).symm

/-! ### Decode after encode (R113) -/

theorem ngtEvent_ngtPayload {tag : Byte} {pack : Bst93Rec → BstRec} {r : Bst93Rec}
    (hr : r.data.length ≤ 249) : ngtEvent tag pack (ngtPayload tag r).tail = msgEvent (pack r) := by
  refine ngtEvent_eq_msgEvent_iff.mpr ⟨⟨BitVec.ofNat 8 (6 + r.data.length), r.prio.setWidth 8,
    r.pdus, r.pduf, r.dp.setWidth 8, r.dst, BitVec.ofNat 8 r.data.length, r.data⟩, rfl, ?_, ?_, ?_⟩
  · simp only [BitVec.toNat_ofNat]
    omega
  · simp only [BitVec.toNat_ofNat]
    omega
  · simp [ngtRecord, BitVec.extractLsb'_setWidth_of_le]

theorem canEvent_canPayload {r : Bst95Rec} (hr : r.data.length ≤ 8) :
    canEvent (canPayload r).tail = msgEvent (.bst95 r) := by
  refine canEvent_eq_msgEvent_iff.mpr ⟨⟨BitVec.ofNat 8 (6 + r.data.length), byteOf r.ts 0,
    byteOf r.ts 1, r.src, r.pdus, r.pduf, dppcOf r, r.data⟩, rfl, ?_, hr, ?_⟩
  · simp only [BitVec.toNat_ofNat]
    omega
  · obtain ⟨hdp, hprio, htrc, hdir⟩ := dppcOf_fields r
    simp [canRecord, le16_byteOf, hdp, hprio, htrc, hdir]

theorem n2kEvent_n2kPayload {r : BstD0Rec} (hr : r.data.length ≤ 1785) :
    n2kEvent (n2kPayload r).tail = msgEvent (.bstD0 r) := by
  refine n2kEvent_eq_msgEvent_iff.mpr ⟨⟨byteOf (BitVec.ofNat 16 r.data.length) 0,
    byteOf (BitVec.ofNat 16 r.data.length) 1, r.dst, r.src, r.pdus, r.pduf, r.dpp, r.ctrl,
    byteOf r.ts 0, byteOf r.ts 1, byteOf r.ts 2, byteOf r.ts 3, r.data⟩, rfl, ?_, hr, ?_⟩
  · simp only [le16_byteOf, BitVec.toNat_ofNat]
    omega
  · simp [n2kRecord, le32_byteOf]

/-- R113: the message decoder's event of a valid record's layout is that record. -/
theorem eventOfFrame_bstLayout {r : BstRec} (hr : r.data.length ≤ maxData r) :
    eventOfFrame (bstLayout r) = msgEvent r := by
  cases r with
  | bst93 r => exact (eventOfFrame_bst93 _).trans (ngtEvent_ngtPayload hr)
  | bst94 r => exact (eventOfFrame_bst94 _).trans (ngtEvent_ngtPayload hr)
  | bst95 r => exact (eventOfFrame_bst95 _).trans (canEvent_canPayload hr)
  | bstD0 r => exact (eventOfFrame_bstD0 _).trans (n2kEvent_n2kPayload hr)

/-- Settles O54: the record goes through both layers, its layout through the frame's round trip. -/
theorem messageRoundTrip : Obligations.MessageRoundTrip := by
  intro r hvalid
  have hr := (bstValid_iff r).mp hvalid
  refine ⟨eventOfFrame_bstLayout hr, fun s hst => ?_⟩
  obtain ⟨-, hsent⟩ := (encodeBstAppendsTheLayoutsFrame.2 s r).1 hr
  refine ⟨wireFrame (bstLayout r), hsent, ?_⟩
  rw [frameRoundTripFromScanning s _ (.inl hst) (length_bstLayout_le hr s.cfg),
    eventOfFrame_bstLayout hr]
  rfl

/-! ### Encode after decode (R114) -/

/-- R22, R24 to R26: any frame fits some configuration, whose `EventOk` says what a message is. -/
theorem eventOfFrame_msg_valid {f : List Byte} {protocol : Protocol} {tag : Byte}
    {r : BstRec} (hmsg : eventOfFrame f = .msg protocol tag r) :
    protocol = .bst ∧ tag = r.tag ∧ bstValid r = true := by
  obtain ⟨e, hok, he⟩ := bstDecode_emits_eventOk
    ⟨max 1798 f.length, Nat.le_max_left _ _⟩ (Nat.le_max_right 1798 f.length)
  have hevt := congrArg (·.evt) ((he State.reset).symm.trans (bstDecode_eq_emit f State.reset))
  obtain rfl : e = .msg protocol tag r := by simpa [hmsg] using hevt
  exact hok

/-- R109, R114: L, DL and the fields are those of the frame, the reserved bits of P and DP are 0. -/
theorem ngtPayload_ngtRecord {tag : Byte} (htag : tag = idBst93 ∨ tag = idBst94)
    {tail : List Byte} {y : NgtLayout} (hy : ngtLayout tail = some y)
    (hl : y.l.toNat = 6 + y.data.length) (hdl : y.dl.toNat = y.data.length) :
    ngtPayload tag (ngtRecord y) = clearReserved (tag :: tail) := by
  have hid : memRead1 (tag :: tail) 0 = idBst93 ∨ memRead1 (tag :: tail) 0 = idBst94 := htag
  rw [clearReserved, if_pos hid, eq_of_ngtLayout_eq_some hy, ngtPayload]
  simp only [ngtRecord, ← (BitVec.toNat_eq_nat.mp hl).2, ← (BitVec.toNat_eq_nat.mp hdl).2,
    setWidth_extractLsb' (len := 3) (by decide), setWidth_extractLsb' (len := 2) (by decide)]
  rfl

/-- R110, R114. -/
theorem canPayload_canRecord {tail : List Byte} {y : CanLayout} (hy : canLayout tail = some y)
    (hl : y.l.toNat = 6 + y.data.length) : canPayload (canRecord y) = idBst95 :: tail := by
  rw [eq_of_canLayout_eq_some hy, canPayload, dppcOf_canRecord]
  simp [canRecord, ← (BitVec.toNat_eq_nat.mp hl).2, byteOf_le16_0, byteOf_le16_1]

/-- R111, R114. -/
theorem n2kPayload_n2kRecord {tail : List Byte} {y : N2kLayout} (hy : n2kLayout tail = some y)
    (hll : (le16 y.ll0 y.ll1).toNat = y.data.length) :
    n2kPayload (n2kRecord y) = idBstD0 :: tail := by
  rw [eq_of_n2kLayout_eq_some hy, n2kPayload]
  simp [n2kRecord, ← (BitVec.toNat_eq_nat.mp hll).2, byteOf_le16_0, byteOf_le16_1, byteOf_le32_0,
    byteOf_le32_1, byteOf_le32_2, byteOf_le32_3]

/-- R114: the layout of an accepted frame's record is the frame without its reserved bits. -/
theorem bstLayout_eq_clearReserved {f : List Byte} {r : BstRec}
    (hmsg : eventOfFrame f = msgEvent r) : bstLayout r = clearReserved f := by
  cases f with
  | nil => cases hmsg
  | cons id tail =>
    by_cases h93 : id = idBst93
    · subst h93
      obtain ⟨y, hy, hl, hdl, rfl⟩ := ngtEvent_eq_msgEvent_iff.mp
        ((eventOfFrame_bst93 tail).symm.trans hmsg)
      exact ngtPayload_ngtRecord (.inl rfl) hy hl hdl
    by_cases h94 : id = idBst94
    · subst h94
      obtain ⟨y, hy, hl, hdl, rfl⟩ := ngtEvent_eq_msgEvent_iff.mp
        ((eventOfFrame_bst94 tail).symm.trans hmsg)
      exact ngtPayload_ngtRecord (.inr rfl) hy hl hdl
    have hkeep : clearReserved (id :: tail) = id :: tail := if_neg (not_or.mpr ⟨h93, h94⟩)
    rw [hkeep]
    by_cases h95 : id = idBst95
    · subst h95
      obtain ⟨y, hy, hl, -, rfl⟩ := canEvent_eq_msgEvent_iff.mp
        ((eventOfFrame_bst95 tail).symm.trans hmsg)
      exact canPayload_canRecord hy hl
    by_cases hD0 : id = idBstD0
    · subst hD0
      obtain ⟨y, hy, hll, -, rfl⟩ := n2kEvent_eq_msgEvent_iff.mp
        ((eventOfFrame_bstD0 tail).symm.trans hmsg)
      exact n2kPayload_n2kRecord hy hll
    · simp [eventOfFrame, memRead1, h93, h94, h95, hD0, msgEvent] at hmsg

/-- Settles O55: a message is that of a valid record, which the layout places where it was read. -/
theorem encodeAfterDecode : Obligations.EncodeAfterDecode := by
  intro f protocol tag r hmsg
  obtain ⟨rfl, rfl, hvalid⟩ := eventOfFrame_msg_valid hmsg
  exact ⟨rfl, rfl, hvalid, bstLayout_eq_clearReserved hmsg⟩

end Sys2Proof.Proofs
end

section
/-! The host operations as steps (spec/45_host_operations.md): FEED and FEED_CHUNK are the frame
decoder's arms (R117, R118), RESET returns it to SCAN (R119), and the only stop is an operation that
does not decode (R122, R124). -/

namespace Sys2Proof.Proofs
open Sys2Proof Sys2Proof.Machine

/-! ### FEED_CHUNK (R118) -/

/-- R37: what `feed_frame` says of one byte, for a chunk. -/
theorem feedChunk_unchanged_fields (bs : List Byte) (s : State) :
    (feedChunk bs s).txout = s.txout ∧ (feedChunk bs s).results = s.results ∧
      (feedChunk bs s).cfg = s.cfg ∧ (feedChunk bs s).ops = s.ops := by
  induction bs generalizing s with
  | nil => exact ⟨rfl, rfl, rfl, rfl⟩
  | cons b bs ih => simpa using ih (feed b s)

/-- Settles O34: the recursion over the chunk, and its frame. -/
theorem feedChunkFeedsEachByte : Obligations.FeedChunkFeedsEachByte := by
  refine ⟨fun _ => rfl, fun s s' b bs hfeed => ?_,
    fun s bs => ⟨_, rfl, feedChunk_unchanged_fields bs s⟩⟩
  obtain rfl : feed b s = s' := Host.Outcome.next.inj hfeed
  exact congrArg Host.Outcome.next (feedChunk_cons b bs s)

/-! ### RESET (R119) -/

theorem toScan_eq_self {s : State} (hst : s.rxState = .scan) (hbuf : s.buf = []) :
    toScan s = s := by
  rw [toScan, ← hst, ← hbuf]

/-- Settles O2: the byte 00 encodes RESET, so the step runs it; with nothing to drop it drops
nothing. -/
theorem resetDropsThePartialFrameSilently : Obligations.ResetDropsThePartialFrameSilently :=
  fun s => ⟨fun rest => stepRunsTheEncodedOperation s .reset rest rfl,
    fun hst hbuf => congrArg Host.Outcome.next (toScan_eq_self hst hbuf)⟩

/-! ### FEED (R117) -/

/-- Settles O17: the row the decoder gives is the one the byte encodes. -/
theorem feedAppliesTheSelectedArm : Obligations.FeedAppliesTheSelectedArm := fun s b =>
  ⟨rfl, exec_feed_of_encodesAt (encodesAt_decodeWire s.rxState b)⟩

/-! ### Operations that do not decode (R124) -/

theorem step_of_decode_error {s : State} {op : List Byte} {rest : List (List Byte)}
    {why : Undecodable} (hops : s.ops = op :: rest) (hdec : decode .hostOp op = .error why) :
    step s = .refused (refusalOf why) := by
  obtain ⟨hnil, -⟩ | ⟨_, _, _, hcons, hok, -⟩ | ⟨_, _, _, hcons, herr, hstep⟩ := step_cases s
  · simp [hops] at hnil
  · obtain ⟨rfl, rfl⟩ := List.cons.inj (hops.symm.trans hcons)
    simp [hdec] at hok
  · obtain ⟨rfl, rfl⟩ := List.cons.inj (hops.symm.trans hcons)
    obtain rfl := Except.error.inj (hdec.symm.trans herr)
    exact hstep

/-- R63: the assigned codes are 00 to 04. -/
theorem decode_of_unassigned {code : Byte} (hcode : 5 ≤ code.toNat) (operands : List Byte) :
    decode .hostOp (code :: operands) = .error (.unassignedOpcode code) := by
  have code_ne {op : Byte} (hop : op.toNat < 5) : code ≠ op := by
    rintro rfl
    omega
  simp only [decode, decodeHostOp, code_ne (op := opReset) (by decide),
    code_ne (op := opFeed) (by decide), code_ne (op := opFeedChunk) (by decide),
    code_ne (op := opEncodeFrame) (by decide), code_ne (op := opEncodeBst) (by decide), if_false]

/-- R108: the tags of a record are the four identifiers. -/
theorem readRec_of_unknown_tag {tag : Byte} (h93 : tag ≠ idBst93) (h94 : tag ≠ idBst94)
    (h95 : tag ≠ idBst95) (hD0 : tag ≠ idBstD0) (bs : List Byte) : readRec tag bs = none := by
  simp only [readRec, h93, h94, h95, hD0, if_false]

theorem decode_encodeBst_of_readRec_none {tag : Byte} {bs : List Byte}
    (hread : readRec tag bs = none) :
    decode .hostOp (opEncodeBst :: tag :: bs) = .error (.illTypedOperand opEncodeBst) := by
  simp [decode, decodeHostOp, hread]

/-- Settles O37: neither form decodes, and the step refuses with the decoder's reason. -/
theorem unassignedOperationsAreRefused : Obligations.UnassignedOperationsAreRefused := fun _ _ =>
  ⟨fun _ operands hcode => step_of_decode_error rfl (decode_of_unassigned hcode operands),
    fun _ bs h93 h94 h95 hD0 => step_of_decode_error rfl
      (decode_encodeBst_of_readRec_none (readRec_of_unknown_tag h93 h94 h95 hD0 bs))⟩

/-! ### Nothing else stops the machine (R122) -/

theorem exec_completes (i : Instr) (s : State) : Completes (exec i s) := by
  obtain ⟨f, hexec, -⟩ := exec_hasEffect i
  exact ⟨f s, hexec s⟩

/-- Settles O38: a step with none waiting and one that decodes complete, the rest is refused. -/
theorem nothingStopsButABadOperation : Obligations.NothingStopsButABadOperation := by
  refine ⟨exec_completes, fun s => ?_⟩
  obtain ⟨-, hnone⟩ | ⟨_, _, i, -, -, hrun⟩ | ⟨op, rest, why, hops, herr, hrefused⟩ := step_cases s
  · exact .inl ⟨s, hnone⟩
  · exact .inl (hrun ▸ exec_completes i _)
  · exact .inr ⟨op, rest, why, hops, herr, hrefused⟩

end Sys2Proof.Proofs
end

section
/-! What an error leaves behind (spec/60_exceptions.md R125, R132, R133): wherever the decoder
stands, an encoded frame leaves it in SCAN, so the frame after it is delivered. -/

namespace Sys2Proof.Proofs
open Sys2Proof Sys2Proof.Machine

section
variable {s : State}

/-! ### Where the bytes of a frame lead the decoder -/

/-- R74, R78: Append stays in BODY or overflows. -/
theorem append_rxState_ne_bodyEsc (hst : s.rxState = .body) (x : Byte) :
    (append x s).rxState ≠ .bodyEsc := by
  obtain ⟨-, happ⟩ | ⟨-, happ⟩ := append_cases x s
  · simp [happ]
  · simp [happ, hst]

/-- R76: each of the three outcomes goes on in SCAN. -/
theorem frameEnd_rxState (hst : s.rxState = .bodyEsc) : (frameEnd s).rxState = .scan := by
  obtain ⟨-, hend⟩ | ⟨-, -, hend⟩ | ⟨-, -, hend⟩ := frameEnd_cases hst <;> rw [hend]
  · exact raise_rxState _ _ _
  · exact toScan_rxState _
  · exact raise_rxState _ _ _

/-- R72, R81: an escape is pending only right after a DLE in BODY; BODY_ESC never keeps one. -/
theorem feed_enters_bodyEsc {b : Byte} (hesc : (feed b s).rxState = .bodyEsc) :
    s.rxState = .body ∧ b = dle := by
  cases hst : s.rxState with
  | scan =>
    rw [feed_scan hst] at hesc
    split_ifs at hesc
    simp [hst] at hesc
  | scanDle =>
    rw [feed_scanDle hst] at hesc
    split_ifs at hesc <;> simp [hst] at hesc
  | body =>
    rw [feed_body hst] at hesc
    split_ifs at hesc with hdle
    · exact ⟨rfl, hdle⟩
    · exact absurd hesc (append_rxState_ne_bodyEsc hst b)
  | bodyEsc =>
    rw [feed_bodyEsc hst] at hesc
    split_ifs at hesc
    · exact absurd hesc (append_rxState_ne_bodyEsc (s := { s with rxState := .body }) rfl dle)
    · simp [frameEnd_rxState hst] at hesc
    · simp at hesc
    · simp at hesc

/-- R68, R70, R72: with no escape pending, a DLE is remembered or marks one. -/
theorem feed_dle_rxState (hst : s.rxState ≠ .bodyEsc) :
    (feed dle s).rxState = .scanDle ∨ (feed dle s).rxState = .bodyEsc := by
  cases h : s.rxState with
  | scan => simp [feed_scan h]
  | scanDle => simp [feed_scanDle h, h]
  | body => simp [feed_body h]
  | bodyEsc => exact absurd h hst

/-- `10 02` leaves no escape pending, from any state: its second byte is no DLE. -/
theorem feedChunk_start_rxState (s : State) : (feedChunk [dle, stx] s).rxState ≠ .bodyEsc := by
  intro hesc
  obtain ⟨-, hstx⟩ := feed_enters_bodyEsc hesc
  exact absurd hstx (by decide)

/-- R43: a stuffed byte leaves no escape pending: it is no DLE, or it is two. -/
theorem feedChunk_stuff_singleton_rxState (hst : s.rxState ≠ .bodyEsc) (b : Byte) :
    (feedChunk (stuff [b]) s).rxState ≠ .bodyEsc := by
  intro hesc
  by_cases hb : b = dle
  · have htwo : (feed dle (feed dle s)).rxState = .bodyEsc := by simpa [stuff_cons, hb] using hesc
    obtain ⟨hbody, -⟩ := feed_enters_bodyEsc htwo
    obtain hone | hone := feed_dle_rxState hst <;> simp [hone] at hbody
  · have hone : (feed b s).rxState = .bodyEsc := by simpa [stuff_cons, hb] using hesc
    exact hb (feed_enters_bodyEsc hone).2

/-- Stuffed data of any length leaves no escape pending, whether or not the buffer overflows. -/
theorem feedChunk_stuff_rxState (hst : s.rxState ≠ .bodyEsc) (data : List Byte) :
    (feedChunk (stuff data) s).rxState ≠ .bodyEsc := by
  induction data generalizing s with
  | nil => exact hst
  | cons b data ih =>
    rw [← List.singleton_append, stuff_append, feedChunk_append]
    exact ih (feedChunk_stuff_singleton_rxState hst b)

/-- R71, R76: with no escape pending, `10 03` ends the frame or is skipped. -/
theorem feedChunk_end_rxState (hst : s.rxState ≠ .bodyEsc) :
    (feedChunk [dle, etx] s).rxState = .scan := by
  rw [feedChunk_cons, feedChunk_cons, feedChunk_nil]
  obtain hdle | hesc := feed_dle_rxState hst
  · simp [feed_scanDle hdle]
  · rw [feed_bodyEsc hesc, if_neg (by decide), if_pos rfl, frameEnd_rxState hesc]

/-- R133: from any state, an encoded frame of any length leaves the decoder in SCAN. -/
theorem feedChunk_wireFrame_rxState (q : List Byte) (s : State) :
    (feedChunk (wireFrame q) s).rxState = .scan := by
  rw [feedChunk_wireFrame, feedChunk_append]
  exact feedChunk_end_rxState (feedChunk_stuff_rxState (feedChunk_start_rxState s) _)

end

/-! ### The next frame -/

theorem feedChunk_toHostSide (bs : List Byte) (s : State) :
    (feedChunk bs s).toHostSide = s.toHostSide := by
  induction bs generalizing s with
  | nil => rfl
  | cons b bs ih => simpa using ih (feed b s)

/-- R20, R37: what a chunk did before the last event, in the terms of the state it was fed in. -/
theorem toScan_emit_feedChunk (bs : List Byte) (e : Event) (s : State) :
    ∃ es, toScan (emit e (feedChunk bs s)) =
      { s with rxState := .scan, buf := [], evt := s.evt ++ es ++ [e] } := by
  obtain ⟨es, hevt, -⟩ := feedChunk_evt_length_le bs s
  obtain ⟨htxout, -, hcfg, -⟩ := feedChunk_unchanged_fields bs s
  refine ⟨es, ?_⟩
  rw [← hevt, ← htxout, ← hcfg, ← feedChunk_toHostSide bs s]
  rfl

/-- Settles O53: the first frame leaves the decoder in SCAN, where the second is delivered. -/
theorem decoderResynchronises : Obligations.DecoderResynchronises := by
  intro s q p hfits
  obtain ⟨-, -, hcfg, -⟩ := feedChunk_unchanged_fields (wireFrame q) s
  have hrun : feedChunk (wireFrame q ++ wireFrame p) s =
      toScan (emit (eventOfFrame p) (feedChunk (wireFrame q) s)) := by
    rw [feedChunk_append, feedChunk_wireFrame_of_scanning
      (.inl (feedChunk_wireFrame_rxState q s)) (hcfg ▸ hfits)]
  obtain ⟨es, hes⟩ := toScan_emit_feedChunk (wireFrame q) (eventOfFrame p) s
  exact ⟨es, congrArg Host.Outcome.next (hrun.trans hes)⟩

end Sys2Proof.Proofs
end

section
/-! Which errors the receive path raises and what they change (spec/60_exceptions.md R126, R129,
R132): a fed byte adds nothing, raises an error of the frame layer, or hands a frame to the message
layer. -/

namespace Sys2Proof.Proofs
open Sys2Proof Sys2Proof.Machine

/-! ### The layer of an event (R126) -/

/-- The layer that appends an event: a message is the message decoder's, an error its kind's. -/
def eventLayer : Event → Layer
  | .msg _ _ _ => .message
  | .err e => e.kind.layer

@[simp] theorem eventLayer_err (e : CodecError) : eventLayer (.err e) = e.kind.layer := rfl

theorem eventLayer_ngtByOffset (tag : Byte) (pack : Bst93Rec → BstRec) (f : List Byte) :
    eventLayer (ngtByOffset tag pack f) = .message := by
  simp only [ngtByOffset]
  split_ifs <;> rfl

theorem eventLayer_canByOffset (f : List Byte) : eventLayer (canByOffset f) = .message := by
  simp only [canByOffset]
  split_ifs <;> rfl

theorem eventLayer_n2kByOffset (f : List Byte) : eventLayer (n2kByOffset f) = .message := by
  simp only [n2kByOffset]
  split_ifs <;> rfl

/-- R89 to R91: whatever the raw frame, its event is of the message layer. -/
theorem eventLayer_eventOfFrame (f : List Byte) : eventLayer (eventOfFrame f) = .message := by
  simp only [eventOfFrame]
  split_ifs
  · rfl
  · exact eventLayer_ngtByOffset _ _ f
  · exact eventLayer_ngtByOffset _ _ f
  · exact eventLayer_canByOffset f
  · exact eventLayer_n2kByOffset f
  · rfl

/-! ### What a fed byte raises -/

/-- R132: the state the decoder goes on in after an error. The `02` of a bad escape has opened the
next frame (R77). -/
def resumesIn : CodecError → RxState
  | .unescapedControlByte b _ => if b = stx then .body else .scan
  | _ => .scan

theorem resumesIn_of_stx {e : CodecError} (hstx : ∃ n, e = .unescapedControlByte stx n) :
    resumesIn e = .body := by
  obtain ⟨n, rfl⟩ := hstx
  rfl

theorem resumesIn_of_not_stx {e : CodecError} (hstx : ¬ ∃ n, e = .unescapedControlByte stx n) :
    resumesIn e = .scan := by
  cases e with
  | unescapedControlByte b n => exact if_neg fun hb => hstx ⟨n, by rw [hb]⟩
  | _ => rfl

/-- `t` is `s` after an error of the frame layer (R125, R132). -/
def RaisesFrameError (s t : State) : Prop :=
  ∃ e : CodecError, e.kind.layer = .frame ∧ t = raise e (resumesIn e) s

/-- `t` is `s` after its frame was handed to the message decoder (R76, R89). -/
def DeliversFrame (s t : State) : Prop := ∃ f, t = toScan (emit (eventOfFrame f) s)

theorem append_raises (x : Byte) (s : State) :
    (append x s).evt = s.evt ∨ RaisesFrameError s (append x s) := by
  obtain ⟨-, happ⟩ | ⟨-, happ⟩ := append_cases x s
  · exact .inr ⟨_, rfl, happ⟩
  · exact .inl (by rw [happ])

theorem frameEnd_raises {s : State} (hst : s.rxState = .bodyEsc) :
    RaisesFrameError s (frameEnd s) ∨ DeliversFrame s (frameEnd s) := by
  obtain ⟨-, hend⟩ | ⟨-, -, hend⟩ | ⟨-, -, hend⟩ := frameEnd_cases hst
  · exact .inl ⟨_, rfl, hend⟩
  · exact .inr ⟨_, by rw [hend, bstDecode_eq_emit]⟩
  · exact .inl ⟨_, rfl, hend⟩

/-- R81, R117: what a fed byte adds to `evt`, and what goes with it. -/
theorem feed_raises (b : Byte) (s : State) :
    (feed b s).evt = s.evt ∨ RaisesFrameError s (feed b s) ∨
      (s.rxState = .bodyEsc ∧ b = etx ∧ DeliversFrame s (feed b s)) := by
  cases hst : s.rxState with
  | scan =>
    rw [feed_scan hst]
    split_ifs <;> exact .inl rfl
  | scanDle =>
    rw [feed_scanDle hst]
    split_ifs <;> exact .inl rfl
  | body =>
    rw [feed_body hst]
    split_ifs
    · exact .inl rfl
    · exact (append_raises b s).imp_right .inl
  | bodyEsc =>
    rw [feed_bodyEsc hst]
    split_ifs with hdle hetx hstx
    · exact (append_raises dle { s with rxState := .body }).imp_right .inl
    · exact .inr ((frameEnd_raises hst).imp_right fun hdeliver => ⟨rfl, hetx, hdeliver⟩)
    · exact .inr (.inl ⟨_, rfl, rfl⟩)
    · exact .inr (.inl ⟨.unescapedControlByte b s.buf.length, rfl, by rw [resumesIn, if_neg hstx]⟩)

/-- Settles O46: the error appended is the one raised, or it is the message decoder's. -/
theorem errorsLeaveNoFrame : Obligations.ErrorsLeaveNoFrame := by
  intro s s' b e hexec hevt
  obtain rfl := Host.Outcome.next.inj hexec
  obtain hsame | ⟨e', hlayer, hfeed⟩ | ⟨hst, hetx, f, hfeed⟩ := feed_raises b s
  · simp [hsame] at hevt
  · rw [hfeed] at hevt ⊢
    obtain rfl : e' = e := by simpa using hevt
    exact ⟨fun _ => ⟨raise_buf _ _ _, resumesIn_of_stx, resumesIn_of_not_stx⟩,
      fun hmessage => by simp [hlayer] at hmessage⟩
  · rw [hfeed] at hevt ⊢
    have hevent : eventOfFrame f = .err e := by simpa using hevt
    have hlayer : e.kind.layer = .message := by
      rw [← eventLayer_err, ← hevent, eventLayer_eventOfFrame]
    exact ⟨fun hframe => by simp [hlayer] at hframe,
      fun _ => ⟨hst, hetx, toScan_buf _, toScan_rxState _⟩⟩

/-! ### No step appends an event of the transport layer (R129) -/

section
variable {e : Event} {s : State}

theorem mem_evt_of_mem_feed (he : eventLayer e = .transport) {b : Byte}
    (hmem : e ∈ (feed b s).evt) : e ∈ s.evt := by
  obtain hsame | ⟨e', hlayer, hfeed⟩ | ⟨-, -, f, hfeed⟩ := feed_raises b s
  · exact hsame ▸ hmem
  · rw [hfeed, raise_evt] at hmem
    refine (List.mem_append.mp hmem).resolve_right fun hlast => ?_
    simp [List.mem_singleton.mp hlast, hlayer] at he
  · rw [hfeed, toScan_evt, emit_evt] at hmem
    refine (List.mem_append.mp hmem).resolve_right fun hlast => ?_
    simp [List.mem_singleton.mp hlast, eventLayer_eventOfFrame] at he

theorem mem_evt_of_mem_feedChunk (he : eventLayer e = .transport) {bs : List Byte}
    (hmem : e ∈ (feedChunk bs s).evt) : e ∈ s.evt := by
  induction bs generalizing s with
  | nil => exact hmem
  | cons b bs ih => exact mem_evt_of_mem_feed he (ih hmem)

/-- R129: the receive operations by their bytes; the others append no event. -/
theorem mem_evt_of_mem_exec (he : eventLayer e = .transport) {i : Instr} {s' : State}
    (hi : pointOf i = .hostOp) (hexec : exec i s = .next s') (hmem : e ∈ s'.evt) : e ∈ s.evt := by
  obtain rfl | ⟨b, rfl⟩ | ⟨bs, rfl⟩ | ⟨p, rfl⟩ | ⟨r, rfl⟩ := hostOp_cases hi <;>
    obtain rfl := Host.Outcome.next.inj hexec
  · exact hmem
  · exact mem_evt_of_mem_feed he hmem
  · exact mem_evt_of_mem_feedChunk he hmem
  · obtain ⟨-, -, hevt⟩ := (ignoresRx_transmit p).frame s
    exact hevt ▸ hmem
  · obtain ⟨-, -, hevt⟩ := (ignoresRx_transmitRecord r).frame s
    exact hevt ▸ hmem

end

/-- Settles O47: the kind is of the transport's layer, and the operation that a step runs appends no
event of that layer. -/
theorem transportErrorIsNeverRaised : Obligations.TransportErrorIsNeverRaised := by
  refine ⟨⟨rfl, rfl, rfl, rfl, rfl, rfl⟩, fun s s' hstep hmem => ?_⟩
  obtain ⟨-, hnone⟩ | ⟨op, rest, i, -, hdec, hrun⟩ | ⟨_, _, _, -, -, hrefused⟩ := step_cases s
  · obtain rfl := Host.Outcome.next.inj (hnone.symm.trans hstep)
    exact hmem
  · exact mem_evt_of_mem_exec (s := { s with ops := rest }) rfl (pointOf_of_decode_hostOp hdec)
      (hrun.symm.trans hstep) hmem
  · simp [hrefused] at hstep

end Sys2Proof.Proofs
end

section
/-! Power-on and what happens outside frames (spec/70_reset_and_hazards.md R138, R140, R145): a
decoder that is scanning waits for the pair `10 02`, and takes any such pair for a frame's start. -/

namespace Sys2Proof.Proofs
open Sys2Proof Sys2Proof.Machine

/-! ### Power-on and RESET (R138) -/

/-- Settles O1: the fields of the power-on state; RESET is `toScan`. -/
theorem powerOnAndResetState : Obligations.PowerOnAndResetState :=
  ⟨⟨reset_rxState, reset_buf, reset_evt, reset_txout⟩, fun _ => rfl⟩

theorem rxOk_reset : RxOk State.reset := ⟨Nat.zero_le _, fun _ => reset_buf⟩

theorem evtOk_reset : EvtOk State.reset := fun _ hmem => nomatch reset_evt ▸ hmem

/-- R21: nothing is sent yet, and nothing returned. -/
theorem txOk_reset : TxOk State.reset := ⟨rfl, fun _ hmem => nomatch reset_results ▸ hmem⟩

/-- Settles O43: each clause speaks of a list that is empty at power-on. -/
theorem powerOnStateHasTheInvariant : Obligations.PowerOnStateHasTheInvariant :=
  ⟨rxOk_reset, evtOk_reset, txOk_reset⟩

/-! ### Scanning without a frame start (R67, R68, R70, R71, R140) -/

/-- R68: the bytes seen that may still begin a frame, which SCAN_DLE alone remembers. -/
def seenOfStart : RxState → List Byte
  | .scanDle => [dle]
  | _ => []

section
variable {s : State}

/-- R67, R68, R70, R71: unless it completes `10 02`, a byte only decides whether a DLE is
remembered, and what is remembered is that byte. -/
theorem feed_of_no_start (hst : s.rxState = .scan ∨ s.rxState = .scanDle) {b : Byte}
    (hno : seenOfStart s.rxState ++ [b] ≠ [dle, stx]) :
    ∃ st, (st = .scan ∨ st = .scanDle) ∧ seenOfStart st <:+ [b] ∧
      feed b s = { s with rxState := st } := by
  by_cases hdle : b = dle
  · subst hdle
    refine ⟨.scanDle, .inr rfl, List.suffix_rfl, ?_⟩
    obtain hst | hst := hst
    · rw [feed_scan hst, if_pos rfl]
    · rw [feed_scanDle hst, if_neg (by decide), if_pos rfl, ← hst]
  · refine ⟨.scan, .inl rfl, List.nil_suffix, ?_⟩
    obtain hst | hst := hst
    · rw [feed_scan hst, if_neg hdle, ← hst]
    · have hstx : b ≠ stx := fun h => hno (by rw [hst, h]; rfl)
      rw [feed_scanDle hst, if_neg hstx, if_neg hdle]

/-- R140: bytes that do not hold `10 02`, with the DLE remembered before them, open no frame. -/
theorem feedChunk_of_no_start (hst : s.rxState = .scan ∨ s.rxState = .scanDle) {bs : List Byte}
    (hno : ¬ [dle, stx] <:+: seenOfStart s.rxState ++ bs) :
    ∃ st, (st = .scan ∨ st = .scanDle) ∧ feedChunk bs s = { s with rxState := st } := by
  induction bs generalizing s with
  | nil => exact ⟨s.rxState, hst, rfl⟩
  | cons b bs ih =>
    have hbyte : seenOfStart s.rxState ++ [b] ≠ [dle, stx] := fun h =>
      hno ⟨[], bs, by simp [← h]⟩
    obtain ⟨st, hscan, ⟨pre, hseen⟩, hfeed⟩ := feed_of_no_start hst hbyte
    have hrest : ¬ [dle, stx] <:+: seenOfStart st ++ bs := fun h =>
      hno (h.trans ⟨seenOfStart s.rxState ++ pre, [], by
        rw [List.append_nil, List.append_assoc, ← List.append_assoc pre, hseen,
          List.singleton_append]⟩)
    obtain ⟨st', hscan', hchunk⟩ := ih (s := { s with rxState := st }) hscan hrest
    exact ⟨st', hscan', by rw [feedChunk_cons, hfeed, hchunk]⟩

end

/-- Settles O57: SCAN remembers nothing, so the chunk itself is what may not hold `10 02`. -/
theorem nothingHappensWithoutAFrameStart : Obligations.NothingHappensWithoutAFrameStart := by
  intro s bs hst hno
  have hinfix : ¬ [dle, stx] <:+: seenOfStart s.rxState ++ bs := by
    rw [hst]
    rintro ⟨xs, ys, hbs⟩
    exact hno xs ys hbs.symm
  obtain ⟨st, hscan, hchunk⟩ := feedChunk_of_no_start (.inl hst) hinfix
  exact ⟨st, hscan, congrArg Host.Outcome.next hchunk⟩

/-! ### The false frame (R145) -/

section
variable {s : State} {data : List Byte} {b : Byte}

/-- R79: a frame cut off by a bad escape. -/
theorem feedChunk_badEscape (hst : s.rxState = .scan ∨ s.rxState = .scanDle)
    (hfits : data.length ≤ s.cfg.maxFrame + 1) (hdle : b ≠ dle) (hetx : b ≠ etx) (hstx : b ≠ stx) :
    feedChunk ([dle, stx] ++ stuff data ++ [dle, b]) s =
      raise (.unescapedControlByte b data.length) .scan s := by
  rw [feedChunk_append, feedChunk_start_stuff hst hfits, feedChunk_cons, feed_body rfl, if_pos rfl,
    feedChunk_cons, feedChunk_nil, feed_bodyEsc rfl, if_neg hdle, if_neg hetx, if_neg hstx]
  rfl

/-- R76: a frame whose checksum byte `c` is not that of its body. -/
theorem feedChunk_badChecksum (hst : s.rxState = .scan ∨ s.rxState = .scanDle) {body : List Byte}
    {c : Byte} (hfits : body.length ≤ s.cfg.maxFrame) (hc : c ≠ checksum body) :
    feedChunk ([dle, stx] ++ stuff (body ++ [c]) ++ [dle, etx]) s =
      raise (.checksumMismatch body.length (some c) (some (checksum body))) .scan s := by
  have hsum : sum8 (body ++ [c]) ≠ 0#8 := mt (sum8_append_singleton_eq_zero body c).mp hc
  rw [feedChunk_frame hst (by simpa using hfits), frameEnd_of_sum8_ne_zero rfl rfl hsum]
  rfl

/-- R145: after the bad escape the decoder scans the rest of the frame, so that a `10 02` in it opens
a second frame, with an error of its own. -/
theorem feedChunk_falseFrame (hst : s.rxState = .scan) (hdata : data.length ≤ s.cfg.maxFrame + 1)
    (hdle : b ≠ dle) (hetx : b ≠ etx) (hstx : b ≠ stx) {skipped body : List Byte} {c : Byte}
    (hskip : ¬ [dle, stx] <:+: skipped) (hbody : body.length ≤ s.cfg.maxFrame)
    (hc : c ≠ checksum body) :
    feedChunk ([dle, stx] ++ stuff data ++ [dle, b] ++ skipped ++
        ([dle, stx] ++ stuff (body ++ [c]) ++ [dle, etx])) s =
      raise (.checksumMismatch body.length (some c) (some (checksum body))) .scan
        (raise (.unescapedControlByte b data.length) .scan s) := by
  obtain ⟨st, hscan, hskipped⟩ := feedChunk_of_no_start
    (s := raise (.unescapedControlByte b data.length) .scan s) (.inl rfl) hskip
  rw [feedChunk_append (_ ++ skipped), feedChunk_append _ skipped,
    feedChunk_badEscape (.inl hst) hdata hdle hetx hstx, hskipped]
  exact feedChunk_badChecksum hscan hbody hc

end

/-- Settles O59: the bad escape is `10 41`, `AA 10` is skipped, and the second DLE of the pair opens
the false frame of `05` with the checksum byte `06`. -/
theorem falseFrameHazardGivesTwoErrors : Obligations.FalseFrameHazardGivesTwoErrors :=
  congrArg Host.Outcome.next <|
    feedChunk_falseFrame (s := State.reset) (data := [0x95#8]) (b := 0x41#8)
      (skipped := [0xAA#8, dle]) (body := [0x05#8]) (c := 0x06#8) rfl (by decide) (by decide)
      (by decide) (by decide) (by decide) (by decide) (by decide)

end Sys2Proof.Proofs
end
